-- ==== Sys2Proof/Word.lean ====
section
/-! DEFINITION. The word and byte types, and the two groups of words the register file is made of:
a `Quad` (four words, one 128-bit block) and an `Oct` (two blocks, eight words).

Every multi-byte register group of the block is a `Quad` or an `Oct` (spec/10_state.md R36 to R40), and the
sponge state is three `Quad`s, one for each plane (spec/00_scope.md R11). A `Quad` stands both for four
words and for the 16-byte string they hold, little-endian (spec/20_memory.md R69: no byte swap). -/

namespace Sys2Proof

/-- A 32-bit word: "Words are 32 bits wide unless the rule says otherwise" (spec/00_scope.md R6). -/
abbrev Word := BitVec 32

/-- A byte of a byte string (spec/00_scope.md R9). -/
abbrev Byte := BitVec 8

/-- Four words, indices 0 to 3: one plane of the sponge state, or one 16-byte block. -/
structure Quad where
  w0 : Word
  w1 : Word
  w2 : Word
  w3 : Word
  deriving DecidableEq, Repr

/-- Eight words, indices 0 to 7: words 0 to 3 are `lo`, words 4 to 7 are `hi` (KEY0..7, OUT0..7). -/
structure Oct where
  lo : Quad
  hi : Quad
  deriving DecidableEq, Repr

/-- Four zero words: sixteen zero bytes. -/
def Quad.zero : Quad := ⟨0, 0, 0, 0⟩

/-- Eight zero words. -/
def Oct.zero : Oct := ⟨Quad.zero, Quad.zero⟩

end Sys2Proof
end

