-- ==== Sys2Proof/Config.lean ====
section
/-! DEFINITION. The implementation parameters of spec/00_scope.md R5. "A model takes each as an argument":
here the argument is the field `params` of State, which no step changes (spec/10_state.md R30), so a statement
about every state is a statement about every implementation. -/

namespace Sys2Proof

/-- The three implementation parameters (spec/00_scope.md R5). -/
structure Params where
  /-- P_DEBUG: the STATE window and the PERMUTE command exist. -/
  debug : Bool
  /-- P_PERM_CYCLES: clock cycles one permutation takes; a legal value is at least 1. -/
  permCycles : Nat
  /-- PLATFORM_BASE: where the 256-byte register window sits in the host's address space. -/
  platformBase : Nat
  deriving DecidableEq, Repr

/-- The parameter values the spec allows: P_PERM_CYCLES is an "integer ≥ 1"; the others are unrestricted. -/
def Params.wf (p : Params) : Bool := decide (1 ≤ p.permCycles)

/-- The values a machine gets when nobody supplies others: P_DEBUG = 0 (the recommended production value) and
P_PERM_CYCLES = 12 (the reference value).
DESIGN CHOICE (log entry 1): all three parameters are OPEN in the spec; PLATFORM_BASE = 0 is the model's. Unsafe
for a claim about `State.reset` alone; no statement of the package rests on it. -/
def Params.reference : Params := { debug := false, permCycles := 12, platformBase := 0 }

/-- The implementation in which every row of spec/opcode_table.json exists (PERMUTE "exists only when
P_DEBUG = 1"). -/
def Params.everyRow : Params := { Params.reference with debug := true }

end Sys2Proof
end

