-- ==== Sys2Proof/Syntax.lean ====
section
/-! DEFINITION. The command set: one constructor for each row of spec/opcode_table.json (spec/30_encoding.md R92).
The data a command works on stands in registers; its word holds only LEN and NA. -/

namespace Sys2Proof

/-- A decoded command, the legal tuple (OP, LEN, NA) of spec/30_encoding.md R96. A field a command must have zero
is no field here. -/
inductive Instr where
  /-- INIT; `na` is the bit NA, nonce absent (R94, R160). -/
  | init (na : Bool)
  /-- ENC_BLOCK (R180). -/
  | encBlock
  /-- ENC_FINAL; `len` is LEN, the number of message bytes in the final block (R93, R181). -/
  | encFinal (len : BitVec 4)
  /-- DEC_BLOCK (R200). -/
  | decBlock
  /-- DEC_FINAL; `len` is LEN (R93, R201). -/
  | decFinal (len : BitVec 4)
  /-- HASH_BLOCK (R220). -/
  | hashBlock
  /-- HASH_FINAL; `len` is LEN (R93, R221). -/
  | hashFinal (len : BitVec 4)
  /-- ZEROIZE (R163). -/
  | zeroize
  /-- PERMUTE, which exists only when P_DEBUG = 1 (R131). -/
  | permute
  deriving DecidableEq, Repr

end Sys2Proof
end

