-- ==== Sys2Proof/WellFormed.lean ====
section
/-! DEFINITION. Which commands exist in an implementation. The bounds on LEN and NA are the types of their fields;
the one condition left is P_DEBUG for PERMUTE (spec/40_permutation.md R131). -/

namespace Sys2Proof

/-- The command exists in the implementation `p`: "PERMUTE ... exists only when P_DEBUG = 1" (R131); every other
command always does. -/
def Instr.wellFormed (p : Params) : Instr → Bool
  | .init _ => true
  | .encBlock => true
  | .encFinal _ => true
  | .decBlock => true
  | .decFinal _ => true
  | .hashBlock => true
  | .hashFinal _ => true
  | .zeroize => true
  | .permute => p.debug

end Sys2Proof
end

