-- ==== Sys2Proof/Decode.lean ====
section
/-! DEFINITION. The decoder of command words, total over all 2³² words (spec/30_encoding.md R96), and the encoder,
both written from the command format of R90 and the opcode map of R92. -/

namespace Sys2Proof

/-- OP = CMD[3:0] (R91). -/
def opField (v : Word) : BitVec 4 := v.extractLsb' 0 4

/-- LEN = CMD[11:8] (R93). -/
def lenField (v : Word) : BitVec 4 := v.extractLsb' 8 4

/-- NA = CMD[16] (R94). -/
def naField (v : Word) : Bool := v.getLsbD 16

/-- The reserved bits CMD[7:4], CMD[15:12] and CMD[31:17] (R95), as the mask R96 tests. -/
def reservedMask : Word := 0xFFFEF0F0

/-- The operation an OP value selects, with the fields it takes (R92); none for a reserved OP (R97). -/
def ofFields (op len : BitVec 4) (na : Bool) : Option Instr :=
  match op.toNat with
  | 0x1 => some (.init na)
  | 0x2 => some .encBlock
  | 0x3 => some (.encFinal len)
  | 0x4 => some .decBlock
  | 0x5 => some (.decFinal len)
  | 0x6 => some .hashBlock
  | 0x7 => some (.hashFinal len)
  | 0x8 => some .zeroize
  | 0x9 => some .permute
  | _ => none

/-- Decode(v) of R96, its tests in the spec's order; `none` is ILLEGAL. -/
def decode (p : Params) (v : Word) : Option Instr :=
  if v &&& reservedMask ≠ 0 then none
  else if opField v = 0x0 ∨ 0xA ≤ opField v then none
  else if opField v = 0x9 ∧ p.debug = false then none
  else if lenField v ≠ 0 ∧ ¬ (opField v = 0x3 ∨ opField v = 0x5 ∨ opField v = 0x7) then none
  else if naField v = true ∧ opField v ≠ 0x1 then none
  else ofFields (opField v) (lenField v) (naField v)

/-- A command word from its three fields, the reserved bits zero (R90). -/
def packWord (op len : BitVec 4) (na : Bool) : Word :=
  op.setWidth 32 ||| (len.setWidth 32 <<< 8) ||| (if na then 0x00010000 else 0)

/-- The word of a command: OP from R92, LEN in bits 11:8, NA in bit 16 (R90, R101). -/
def encode : Instr → Word
  | .init na => packWord 0x1 0 na
  | .encBlock => packWord 0x2 0 false
  | .encFinal len => packWord 0x3 len false
  | .decBlock => packWord 0x4 0 false
  | .decFinal len => packWord 0x5 len false
  | .hashBlock => packWord 0x6 0 false
  | .hashFinal len => packWord 0x7 len false
  | .zeroize => packWord 0x8 0 false
  | .permute => packWord 0x9 0 false

/-- The command word whose low `nbits` bits are those of `w`, every bit above them 0. The block takes a command as
one 32-bit bus write (R90), so there is no byte order between the table's bits and the word's. -/
def tableWord (nbits w : Nat) : Word := BitVec.ofNat 32 (w % 2 ^ nbits)

/-- What the decoder reads from a word numbered as spec/opcode_table.json numbers it, in the implementation in which
every row of the table exists (P_DEBUG = 1; log entry 12). -/
def decodeTableWord (nbits w : Nat) : Option Instr := decode Params.everyRow (tableWord nbits w)

end Sys2Proof
end

