-- ==== Sys2Proof/Machine/State.lean ====
section
/-! DEFINITION. Everything the block holds (spec/10_state.md), as plain data, and the state after reset.

Beside the spec's own state there are three fields of the model: `params` (the implementation's parameters, which
never change), `host` (the bus cycles the outside world has still to present) and `port` (what the block drove onto
the bus in the cycle just ended). The block has no data memory and no program counter (R21, R60). -/

namespace Sys2Proof.Machine

/-- The sponge state S: "three planes of four lanes with linear index 4p+i" (R20). `p0` is the rate, S[0..3];
`p1` and `p2` are the capacity, S[4..11]. -/
structure Sponge where
  p0 : Quad
  p1 : Quad
  p2 : Quad
  deriving DecidableEq, Repr

/-- S = 0, its reset value (R20). -/
def Sponge.zero : Sponge := ⟨Quad.zero, Quad.zero, Quad.zero⟩

/-- STATUS.PHASE (R33). The values 4..7 "are never produced" (R31) and have no constructor. -/
inductive Phase where
  | idle
  | ready
  | absorb
  | finalized
  deriving DecidableEq, Repr

/-- STATUS.MODE (R33). -/
inductive Mode where
  | none
  | enc
  | dec
  | hash
  deriving DecidableEq, Repr

/-- ERR_CODE.CODE (spec/60_exceptions.md R241). The values 6..15 are "never produced" and have no constructor. -/
inductive ErrCode where
  | none
  | illegalCmd
  | seqErr
  | busyErr
  | tagFail
  | addrErr
  deriving DecidableEq, Repr

/-- The per-command scratch values of R43: the "two 16-byte buffers" (the squeezed rate, and `buf`, the rate as it is
absorbed into), the padded block P, of which only the 16 bytes that are ever read are kept (R153), and for DEC_FINAL the
computed tag. -/
structure Scratch where
  squeezed : Quad
  buf : Quad
  padded : Quad
  tag : Quad
  deriving DecidableEq, Repr

/-- All scratch values 0 (R44, R47). -/
def Scratch.zero : Scratch := ⟨Quad.zero, Quad.zero, Quad.zero, Quad.zero⟩

/-- What the outside world drives in one clock cycle: the block's input signals (spec/20_memory.md R61). -/
structure Cycle where
  /-- rst_i: synchronous reset, active high. -/
  rst : Bool
  /-- req_i: an access is presented in this cycle. -/
  req : Bool
  /-- we_i: the access is a write. -/
  we : Bool
  /-- addr_i: byte offset in the window. -/
  addr : BitVec 8
  /-- wdata_i: write data. -/
  wdata : Word
  deriving DecidableEq, Repr

/-- A cycle with no access and no reset. -/
def Cycle.idle : Cycle := ⟨false, false, false, 0, 0⟩

/-- A cycle that presents a read of offset `a`. -/
def Cycle.read (a : BitVec 8) : Cycle := ⟨false, true, false, a, 0⟩

/-- A cycle that presents a write of `v` to offset `a`. -/
def Cycle.write (a : BitVec 8) (v : Word) : Cycle := ⟨false, true, true, a, v⟩

/-- A cycle with rst_i = 1. -/
def Cycle.reset : Cycle := ⟨true, false, false, 0, 0⟩

/-- What the block drives onto the bus in one cycle (R61): `err` is err_o, and `rdata` is rdata_o, `none` in a cycle
in which the spec gives it no value (a write; log entry 8). -/
structure PortOut where
  rdata : Option Word
  err : Bool
  deriving DecidableEq, Repr

/-- The port when nothing is presented: "rdata_o = 0 and err_o = 0" (R62). -/
def PortOut.quiet : PortOut := ⟨some 0, false⟩

/-- The whole machine. Reset values are R47's; `State.resetWith` gives them. -/
structure State where
  /-- The implementation parameters (spec/00_scope.md R5); no step changes them. The model's own field. -/
  params : Params
  /-- S[0..11] (R20). -/
  sponge : Sponge
  /-- KEY0..KEY7 (R36). -/
  key : Oct
  /-- NONCE0..NONCE3 (R37). -/
  nonce : Quad
  /-- DIN0..DIN3 (R38). -/
  din : Quad
  /-- TAGIN0..TAGIN3 (R39). -/
  tagin : Quad
  /-- OUT0..OUT7 (R40). -/
  out : Oct
  /-- STATUS.DONE (R27). -/
  done : Bool
  /-- STATUS.ERR (R28). -/
  err : Bool
  /-- STATUS.TAG_OK (R29). -/
  tagOk : Bool
  /-- STATUS.PHASE (R33). -/
  phase : Phase
  /-- STATUS.MODE (R33). -/
  mode : Mode
  /-- ERR_CODE.CODE (R34). -/
  errCode : ErrCode
  /-- IRQ_EN.DONE_IE (R35). -/
  doneIe : Bool
  /-- IRQ_EN.ERR_IE (R35). -/
  errIe : Bool
  /-- The latched command of R43; a command is in progress, and STATUS.BUSY reads 1, exactly while there is one
  (R26). -/
  cmd : Option Instr
  /-- The sequencer step of R43. The spec only names it: that it counts the cycles of the BUSY window that have passed
  is a DESIGN CHOICE (log entry 22), and so is its 0 while no command is in progress (log entry 23). -/
  seqStep : Nat
  /-- The round counter r of R43, 0..11. Its schedule inside the window is log entry 6; its 0 while no command is in
  progress is a DESIGN CHOICE (log entry 23). -/
  round : Nat
  /-- The scratch values of R43. -/
  scratch : Scratch
  /-- rdata_o and err_o in the cycle that has just ended (R61). The model's own field: an observation, no register. -/
  port : PortOut
  /-- The bus cycles the outside world has still to present, the next one first. The model's own field. -/
  host : List Cycle
  deriving DecidableEq, Repr

/-- What stops the machine: nothing. "An error never transfers control, never stops the block and never blocks a
later command" (spec/60_exceptions.md R240), so there is no reason and the type has no constructor. Safe or unsafe
does not arise: no step can answer a fault. -/
inductive Fault where
  deriving DecidableEq, Repr

/-- Why the model gives an instruction no meaning. -/
inductive Refusal where
  /-- Raised by an arm of `exec` whose instruction has no meaning yet. No arm of this model raises it; it would be
  safe, since nothing follows about a run that stops. -/
  | notModelled (mnemonic : String)
  deriving DecidableEq, Repr

/-- The machine after reset in the implementation `p`: every value of R47 and spec/70_reset_and_hazards.md R270.
Nothing is presented to it yet (`host`) and its port is quiet (`port`). -/
def State.resetWith (p : Params) : State where
  params := p
  sponge := Sponge.zero
  key := Oct.zero
  nonce := Quad.zero
  din := Quad.zero
  tagin := Quad.zero
  out := Oct.zero
  done := false
  err := false
  tagOk := false
  phase := .idle
  mode := .none
  errCode := .none
  doneIe := false
  errIe := false
  cmd := Option.none
  seqStep := 0
  round := 0
  scratch := Scratch.zero
  port := PortOut.quiet
  host := []

/-- The machine right after reset. The spec leaves its parameters OPEN; the model takes `Params.reference`
(DESIGN CHOICE, log entry 1; unsafe for a claim about this one state). -/
def State.reset : State := State.resetWith Params.reference

end Sys2Proof.Machine
end

