-- ==== Sys2Proof/Machine/Ops.lean ====
section
/-! DEFINITION. The named operations over words, register groups and the sponge state, and the error event with its
clearing, which on this block stand where other machines have exception entry and return. -/

namespace Sys2Proof.Machine

/-- The outcome of a step of this machine. -/
abbrev Result := Host.Outcome State Fault Refusal

/-! ### Words and bytes -/

/-- Cyclic rotation of a word right by n (spec/00_scope.md R8). The source's prose says "left" and its vectors need
"right": spec/90_conflicts.md C1 follows the vectors. -/
def rotr32 (x : Word) (n : Nat) : Word := (x >>> n) ||| (x <<< (32 - n))

/-- LE32 of four bytes, the lowest-index byte first (spec/00_scope.md R9). -/
def le32 (b0 b1 b2 b3 : Byte) : Word :=
  b0.setWidth 32 ||| (b1.setWidth 32 <<< 8) ||| (b2.setWidth 32 <<< 16) ||| (b3.setWidth 32 <<< 24)

/-- Byte `j` of a word, byte 0 the least significant (BYTES32 of R9). -/
def wordByte (w : Word) (j : Fin 4) : Byte := w.extractLsb' (8 * j.val) 8

end Sys2Proof.Machine

namespace Sys2Proof

open Machine

/-! ### Groups of four and eight words -/

/-- Word k of a block. -/
def Quad.get (q : Quad) (k : Fin 4) : Word :=
  match k with
  | 0 => q.w0
  | 1 => q.w1
  | 2 => q.w2
  | 3 => q.w3

/-- The block with word k replaced. -/
def Quad.set (q : Quad) (k : Fin 4) (v : Word) : Quad :=
  match k with
  | 0 => { q with w0 := v }
  | 1 => { q with w1 := v }
  | 2 => { q with w2 := v }
  | 3 => { q with w3 := v }

/-- A function of one word, at each of the four. -/
def Quad.map (f : Word → Word) (q : Quad) : Quad := ⟨f q.w0, f q.w1, f q.w2, f q.w3⟩

/-- XOR of two blocks: byte-wise and word-wise are the same (R9). -/
def Quad.xor (a b : Quad) : Quad := ⟨a.w0 ^^^ b.w0, a.w1 ^^^ b.w1, a.w2 ^^^ b.w2, a.w3 ^^^ b.w3⟩

/-- A function of three words, lane by lane. -/
def Quad.map3 (f : Word → Word → Word → Word) (a b c : Quad) : Quad :=
  ⟨f a.w0 b.w0 c.w0, f a.w1 b.w1 c.w1, f a.w2 b.w2 c.w2, f a.w3 b.w3 c.w3⟩

/-- Byte j of the 16-byte string of a block: word ⌊j/4⌋, bits 8(j mod 4)+7 : 8(j mod 4) (spec/20_memory.md R69). -/
def Quad.byte (q : Quad) (j : Fin 16) : Byte :=
  wordByte (q.get ⟨j.val / 4, by omega⟩) ⟨j.val % 4, by omega⟩

/-- The block that holds a 16-byte string: Words(b, 4) of R9. -/
def Quad.ofBytes (b : Fin 16 → Byte) : Quad :=
  ⟨le32 (b 0) (b 1) (b 2) (b 3), le32 (b 4) (b 5) (b 6) (b 7),
   le32 (b 8) (b 9) (b 10) (b 11), le32 (b 12) (b 13) (b 14) (b 15)⟩

/-- Word k of an eight-word group. -/
def Oct.get (o : Oct) (k : Fin 8) : Word :=
  if h : k.val < 4 then o.lo.get ⟨k.val, h⟩ else o.hi.get ⟨k.val - 4, by omega⟩

/-- The eight-word group with word k replaced. -/
def Oct.set (o : Oct) (k : Fin 8) (v : Word) : Oct :=
  if h : k.val < 4 then { o with lo := o.lo.set ⟨k.val, h⟩ v }
  else { o with hi := o.hi.set ⟨k.val - 4, by omega⟩ v }

end Sys2Proof

namespace Sys2Proof.Machine

/-! ### The sponge state -/

/-- S[k], linear index 4p+i (spec/00_scope.md R11). -/
def Sponge.get (S : Sponge) (k : Fin 12) : Word :=
  if k.val < 4 then S.p0.get ⟨k.val % 4, by omega⟩
  else if k.val < 8 then S.p1.get ⟨k.val % 4, by omega⟩
  else S.p2.get ⟨k.val % 4, by omega⟩

/-- S with word k replaced. -/
def Sponge.set (S : Sponge) (k : Fin 12) (v : Word) : Sponge :=
  if k.val < 4 then { S with p0 := S.p0.set ⟨k.val % 4, by omega⟩ v }
  else if k.val < 8 then { S with p1 := S.p1.set ⟨k.val % 4, by omega⟩ v }
  else { S with p2 := S.p2.set ⟨k.val % 4, by omega⟩ v }

/-- Rate(S), the source's serialize(S, 16): S[0..3] as a block (spec/41_session.md R151). -/
def rate (S : Sponge) : Quad := S.p0

/-- SetRate(b), the source's deserialize(S, 16, b): S[0..3] from a block, S[4..11] unchanged (R152). -/
def setRate (b : Quad) (S : Sponge) : Sponge := { S with p0 := b }

/-- S[11] XORed with a word: where the domain-separation word goes (R157). -/
def xorLast (v : Word) (S : Sponge) : Sponge := { S with p2 := { S.p2 with w3 := S.p2.w3 ^^^ v } }

/-! ### Error events

`raise Error(code)` (spec/60_exceptions.md R242) is the block's exception entry: it saves the code and sets ERR, and
changes nothing else (R253: no saved address, no saved state, no mode change). The host's clearing of ERR (R254) is
its return. -/

/-- raise Error(code): ERR <- 1 and CODE <- code; a later event overwrites an earlier one (R242). -/
def State.raise (e : ErrCode) (s : State) : State := { s with err := true, errCode := e }

/-- The error event of an access, where it has one. -/
def State.raiseIf (e : Option ErrCode) (s : State) : State :=
  match e with
  | none => s
  | some c => s.raise c

/-- The clearing of an error: ERR <- 0 and ERR_CODE <- 0 (R254); nothing else is restored. -/
def State.clearErr (s : State) : State := { s with err := false, errCode := .none }

/-! ### The latch of the command in progress -/

/-- STATUS.BUSY: a command is accepted and not yet complete (spec/10_state.md R26). -/
def State.busy (s : State) : Bool := s.cmd.isSome

/-- The hidden state of R43 with no command in progress. That the scratch is 0 is R44, "all scratch values of rule R43
are set to 0".
DESIGN CHOICE (log entry 23): the sequencer step and the round counter go to 0 too; the spec gives them that value at
reset only (R47). -/
def State.release (s : State) : State :=
  { s with cmd := none, seqStep := 0, round := 0, scratch := Scratch.zero }

/-- Acceptance of a command: "latch (op, len, na); BUSY <- 1; DONE <- 0; TAG_OK <- 0; OUT[0..7] <- 0"
(spec/41_session.md R154). -/
def State.accept (i : Instr) (s : State) : State :=
  { s.release with cmd := some i, done := false, tagOk := false, out := Oct.zero }

/-- The part of completion that every command shares: "all scratch values are set to 0; BUSY <- 0 and DONE <- 1"
(R156). -/
def State.complete (s : State) : State := { s.release with done := true }

end Sys2Proof.Machine
end

