-- ==== Sys2Proof/Machine/Command.lean ====
section
/-! DEFINITION. What every command shares: the checks of its presentation, the phase machine, its latency, and the
whole command as one operation (spec/41_session.md R154 to R156). -/

namespace Sys2Proof.Machine

/-- A block or final command of mode `m` is legal in READY, and in ABSORB where the session is locked to `m`
(R155). -/
def legalIn (m : Mode) (phase : Phase) (mode : Mode) : Bool :=
  match phase with
  | .idle => false
  | .ready => true
  | .absorb => decide (mode = m)
  | .finalized => false

/-- Legal(op, PHASE, MODE), the table of R155. -/
def legalCommand (i : Instr) (phase : Phase) (mode : Mode) : Bool :=
  match i with
  | .init _ => true
  | .encBlock => legalIn .enc phase mode
  | .encFinal _ => legalIn .enc phase mode
  | .decBlock => legalIn .dec phase mode
  | .decFinal _ => legalIn .dec phase mode
  | .hashBlock => legalIn .hash phase mode
  | .hashFinal _ => legalIn .hash phase mode
  | .zeroize => true
  | .permute => true

/-- The checks of R154 on what a command word decoded to (`none`: ILLEGAL), in their order: BUSY_ERR, ILLEGAL_CMD,
SEQ_ERR. `none` means accepted. -/
def State.checkCommand (s : State) (d : Option Instr) : Option ErrCode :=
  if s.busy then some .busyErr
  else
    match d with
    | none => some .illegalCmd
    | some i => if legalCommand i s.phase s.mode then none else some .seqErr

/-- The checks of R154 on the command `i`, whose word is ILLEGAL where the implementation lacks the command. -/
def State.checkInstr (s : State) (i : Instr) : Option ErrCode :=
  s.checkCommand (if i.wellFormed s.params then some i else none)

/-- One whole command (R154, R156): presented, checked, and if accepted carried out and completed as "one atomic
step". A rejected command raises its error and has no other effect. `effect` is the command's own pseudocode. -/
def State.command (i : Instr) (effect : State → State) (s : State) : Result :=
  match s.checkInstr i with
  | some e => .next (s.raise e)
  | none => .next (effect (s.accept i)).complete

/-- How many permutations a command runs (spec/70_reset_and_hazards.md R286). -/
def permutationsOf : Instr → Nat
  | .init _ => 1
  | .encBlock => 1
  | .encFinal _ => 2
  | .decBlock => 1
  | .decFinal _ => 2
  | .hashBlock => 1
  | .hashFinal _ => 3
  | .zeroize => 0
  | .permute => 1

/-- How many cycles a command spends loading or absorbing its block before its first permutation (R286: "The "1" is
the cycle that loads or absorbs the block"). -/
def loadCyclesOf : Instr → Nat
  | .init _ => 1
  | .encBlock => 1
  | .encFinal _ => 1
  | .decBlock => 1
  | .decFinal _ => 1
  | .hashBlock => 1
  | .hashFinal _ => 1
  | .zeroize => 1
  | .permute => 0

/-- The latency L of a command, in clock cycles (R286). It depends on the operation alone (R287). -/
def latency (p : Params) (i : Instr) : Nat :=
  loadCyclesOf i + permutationsOf i * p.permCycles

end Sys2Proof.Machine
end

