-- ==== Sys2Proof/Machine/Flags.lean ====
section
/-! DEFINITION. The STATUS, ERR_CODE and IRQ_EN words, the host's write of STATUS, and the interrupt output
(spec/10_state.md R25 to R35, R42). The block has no other flags (R45). -/

namespace Sys2Proof.Machine

/-- The number of a phase in STATUS.PHASE (R33). -/
def Phase.code : Phase → BitVec 3
  | .idle => 0
  | .ready => 1
  | .absorb => 2
  | .finalized => 3

/-- The number of a mode in STATUS.MODE (R33). -/
def Mode.code : Mode → BitVec 2
  | .none => 0
  | .enc => 1
  | .dec => 2
  | .hash => 3

/-- The number of an error in ERR_CODE.CODE (spec/60_exceptions.md R241). -/
def ErrCode.code : ErrCode → BitVec 4
  | .none => 0
  | .illegalCmd => 1
  | .seqErr => 2
  | .busyErr => 3
  | .tagFail => 4
  | .addrErr => 5

/-- One bit as a word. -/
def bitWord (b : Bool) : Word := if b then 1 else 0

/-- What a read of STATUS returns: "BUSY | DONE<<1 | ERR<<2 | TAG_OK<<3 | PHASE<<4 | MODE<<8 | P_DEBUG<<10"
(spec/20_memory.md R66). -/
def State.statusWord (s : State) : Word :=
  bitWord s.busy ||| (bitWord s.done <<< 1) ||| (bitWord s.err <<< 2) ||| (bitWord s.tagOk <<< 3)
    ||| (s.phase.code.setWidth 32 <<< 4) ||| (s.mode.code.setWidth 32 <<< 8) ||| (bitWord s.params.debug <<< 10)

/-- What a read of ERR_CODE returns: zext_32(CODE) (R66). -/
def State.errCodeWord (s : State) : Word := s.errCode.code.setWidth 32

/-- What a read of IRQ_EN returns: zext_32(ERR_IE<<1 | DONE_IE) (R66). -/
def State.irqEnWord (s : State) : Word := (bitWord s.errIe <<< 1) ||| bitWord s.doneIe

/-- A host write of STATUS (R32): bit 1 clears DONE, bit 2 clears ERR and ERR_CODE, every other bit is ignored. -/
def State.writeStatus (v : Word) (s : State) : State :=
  let s1 := if v.getLsbD 1 then { s with done := false } else s
  if v.getLsbD 2 then s1.clearErr else s1

/-- A host write of IRQ_EN (R67): "DONE_IE <- v[0]; ERR_IE <- v[1]". -/
def State.writeIrqEn (v : Word) (s : State) : State :=
  { s with doneIe := v.getLsbD 0, errIe := v.getLsbD 1 }

/-- irq_o (R42): "(STATUS.DONE & IRQ_EN.DONE_IE) | (STATUS.ERR & IRQ_EN.ERR_IE)", a function of the registers. -/
def State.irq (s : State) : Bool := (s.done && s.doneIe) || (s.err && s.errIe)

end Sys2Proof.Machine
end

