-- ==== Sys2Proof/Machine/Bus.lean ====
section
/-! DEFINITION. The register window: the address map, and one host access split into what it reads, what it writes
and which error event it raises (spec/20_memory.md R60 to R76). The two last are apart because a completion may come
between them in one clock cycle (spec/60_exceptions.md R250). -/

namespace Sys2Proof.Machine

/-- The registers of the window (spec/10_state.md R22). -/
inductive Reg where
  | id
  | cmd
  | status
  | errCode
  | irqEn
  | key (k : Fin 8)
  | nonce (k : Fin 4)
  | din (k : Fin 4)
  | tagin (k : Fin 4)
  | out (k : Fin 8)
  /-- STATE0..STATE11, mapped only when P_DEBUG = 1 (R41, R64). -/
  | stateWord (k : Fin 12)
  deriving DecidableEq, Repr

/-- The offset of a register: "Register k of a multi-word group is at base + 4k" (R63). -/
def offsetOf (r : Reg) : BitVec 8 :=
  match r with
  | .id => 0x00
  | .cmd => 0x04
  | .status => 0x08
  | .errCode => 0x0C
  | .irqEn => 0x10
  | .key k => BitVec.ofNat 8 (0x20 + 4 * k.val)
  | .nonce k => BitVec.ofNat 8 (0x40 + 4 * k.val)
  | .din k => BitVec.ofNat 8 (0x50 + 4 * k.val)
  | .tagin k => BitVec.ofNat 8 (0x60 + 4 * k.val)
  | .out k => BitVec.ofNat 8 (0x80 + 4 * k.val)
  | .stateWord k => BitVec.ofNat 8 (0xC0 + 4 * k.val)

/-- The register at byte offset `n` of the window (R63, R64); `none` is an access that is refused, because the offset
is misaligned (R65) or unmapped (R68). -/
def regAtNat (p : Params) (n : Nat) : Option Reg :=
  if n % 4 ≠ 0 then none
  else if n = 0x00 then some .id
  else if n = 0x04 then some .cmd
  else if n = 0x08 then some .status
  else if n = 0x0C then some .errCode
  else if n = 0x10 then some .irqEn
  else if h : 0x20 ≤ n ∧ n < 0x40 then some (.key ⟨(n - 0x20) / 4, by omega⟩)
  else if h : 0x40 ≤ n ∧ n < 0x50 then some (.nonce ⟨(n - 0x40) / 4, by omega⟩)
  else if h : 0x50 ≤ n ∧ n < 0x60 then some (.din ⟨(n - 0x50) / 4, by omega⟩)
  else if h : 0x60 ≤ n ∧ n < 0x70 then some (.tagin ⟨(n - 0x60) / 4, by omega⟩)
  else if h : 0x80 ≤ n ∧ n < 0xA0 then some (.out ⟨(n - 0x80) / 4, by omega⟩)
  else if h : p.debug = true ∧ 0xC0 ≤ n ∧ n < 0xF0 then some (.stateWord ⟨(n - 0xC0) / 4, by omega⟩)
  else none

/-- The register an access with addr_i = `a` reaches, or `none` where it is refused. -/
def regAt (p : Params) (a : BitVec 8) : Option Reg := regAtNat p a.toNat

/-- The constant in ID, "CHM1" (spec/10_state.md R23). -/
def idWord : Word := 0x43484D31

/-- BusRead at a mapped register (R66): the write-only registers read 0, and OUT and STATE read 0 while BUSY = 1. -/
def busRead (r : Reg) (s : State) : Word :=
  match r with
  | .id => idWord
  | .cmd => 0
  | .status => s.statusWord
  | .errCode => s.errCodeWord
  | .irqEn => s.irqEnWord
  | .key _ => 0
  | .nonce _ => 0
  | .din _ => 0
  | .tagin _ => 0
  | .out k => if s.busy then 0 else s.out.get k
  | .stateWord k => if s.busy then 0 else s.sponge.get k

/-- The error event of a BusWrite at a mapped register (R67, R249): a CMD write's checks, and BUSY_ERR for a write to
KEY, NONCE, DIN, TAGIN or STATE while BUSY = 1. -/
def writeError (r : Reg) (v : Word) (s : State) : Option ErrCode :=
  match r with
  | .id => none
  | .cmd => s.checkCommand (decode s.params v)
  | .status => none
  | .errCode => none
  | .irqEn => none
  | .key _ => if s.busy then some .busyErr else none
  | .nonce _ => if s.busy then some .busyErr else none
  | .din _ => if s.busy then some .busyErr else none
  | .tagin _ => if s.busy then some .busyErr else none
  | .out _ => none
  | .stateWord _ => if s.busy then some .busyErr else none

/-- PresentCommand(v) without its error event (spec/41_session.md R154): an accepted command is latched, a rejected
one changes nothing. -/
def State.latch (v : Word) (s : State) : State :=
  match decode s.params v with
  | none => s
  | some i =>
    match s.checkCommand (some i) with
    | none => s.accept i
    | some _ => s

/-- What a BusWrite at a mapped register changes, its error event apart (R67). -/
def writeEffect (r : Reg) (v : Word) (s : State) : State :=
  match r with
  | .id => s
  | .cmd => s.latch v
  | .status => s.writeStatus v
  | .errCode => s
  | .irqEn => s.writeIrqEn v
  | .key k => if s.busy then s else { s with key := s.key.set k v }
  | .nonce k => if s.busy then s else { s with nonce := s.nonce.set k v }
  | .din k => if s.busy then s else { s with din := s.din.set k v }
  | .tagin k => if s.busy then s else { s with tagin := s.tagin.set k v }
  | .out _ => s
  | .stateWord k => if s.busy then s else { s with sponge := s.sponge.set k v }

/-- The error event of the access presented in a cycle, judged on the state at the start of the cycle: at most one
(spec/60_exceptions.md R249, R250). A refused access raises ADDR_ERR (R247). -/
def accessError (c : Cycle) (s : State) : Option ErrCode :=
  if c.req then
    match regAt s.params c.addr with
    | none => some .addrErr
    | some r => if c.we then writeError r c.wdata s else none
  else none

/-- What the access presented in a cycle changes, its error event apart: nothing unless it is a write to a mapped
register (R65, R66, R68). -/
def accessEffect (c : Cycle) (s : State) : State :=
  if c.req && c.we then
    match regAt s.params c.addr with
    | none => s
    | some r => writeEffect r c.wdata s
  else s

/-- One host access on its own: its effect and its error event (R66, R67). -/
def busAccess (c : Cycle) (s : State) : State := (accessEffect c s).raiseIf (accessError c s)

/-- rdata_o and err_o in a cycle, functions of the state at its start (R62). A refused access gives err_o = 1 and
rdata_o = 0 (R65, R68); while rst_i = 1 "reads return 0 and err_o = 0" (spec/70_reset_and_hazards.md R270). In the
cycle of any other write rdata_o is not valid (R61) and has no value here (log entry 8). -/
def portOut (c : Cycle) (s : State) : PortOut :=
  if c.req then
    if c.rst then { rdata := if c.we then none else some 0, err := false }
    else
      match regAt s.params c.addr with
      | none => { rdata := some 0, err := true }
      | some r => { rdata := if c.we then none else some (busRead r s), err := false }
  else PortOut.quiet

/-- The offset in the window of an address of the host's address space (PLATFORM_BASE, spec/00_scope.md R5); `none`
where the address is not the block's. -/
def windowOffset (p : Params) (addr : Nat) : Option (BitVec 8) :=
  if p.platformBase ≤ addr ∧ addr < p.platformBase + 256 then some (BitVec.ofNat 8 (addr - p.platformBase)) else none

/-- The cycle the block sees when the host reads an address of its own address space: an access outside the window
is not presented to the block (log entry 13). -/
def hostRead (p : Params) (addr : Nat) : Cycle :=
  match windowOffset p addr with
  | none => Cycle.idle
  | some a => Cycle.read a

/-- The cycle the block sees when the host writes an address of its own address space. -/
def hostWrite (p : Params) (addr : Nat) (v : Word) : Cycle :=
  match windowOffset p addr with
  | none => Cycle.idle
  | some a => Cycle.write a v

end Sys2Proof.Machine
end

