-- ==== Sys2Proof/Machine/Operands.lean ====
section
/-! DEFINITION. The operands of the commands: the byte strings of the input registers, their masked and padded forms,
the header of INIT, and the domain-separation words (spec/41_session.md R150, R153, R157, R160). -/

namespace Sys2Proof.Machine

/-- DinBytes() (R150): the 16-byte string of DIN0..3. -/
def State.dinBytes (s : State) : Quad := s.din

/-- TagInBytes() (R150): the 16-byte string of TAGIN0..3. -/
def State.tagInBytes (s : State) : Quad := s.tagin

/-- NonceBytes() (R150): the 16-byte string of NONCE0..3. -/
def State.nonceBytes (s : State) : Quad := s.nonce

/-- KeyBytes() (R150): the 32-byte string of KEY0..7. -/
def State.keyBytes (s : State) : Oct := s.key

/-- Mask(b, L) (R153): byte j of b where j < L, else 0x00. -/
def mask (b : Quad) (len : BitVec 4) : Quad :=
  Quad.ofBytes fun j => if j.val < len.toNat then b.byte j else 0x00

/-- A block with byte L replaced: `P[L] <- v`. -/
def setByte (b : Quad) (len : BitVec 4) (v : Byte) : Quad :=
  Quad.ofBytes fun j => if j.val = len.toNat then v else b.byte j

/-- Pad(b, L) (R153): Mask(b, L) with byte L set to 0x80. -/
def pad (b : Quad) (len : BitVec 4) : Quad := setByte (mask b len) len 0x80

/-- INIT's 48-byte header loaded into S, nonce first and key second; 16 zero bytes where the nonce is absent
(R160, R161). -/
def State.header (na : Bool) (s : State) : Sponge :=
  ⟨if na then Quad.zero else s.nonceBytes, s.keyBytes.lo, s.keyBytes.hi⟩

/-- DomainCipher(zext_32(LEN)), the source's literal expression (R157). -/
def domainCipher (len : BitVec 4) : Word :=
  ((1 : Word) <<< 24) ||| ((len.setWidth 32 >>> 4) <<< 25) ||| ((1 : Word) <<< 26)

/-- DomainHash(zext_32(LEN)), the source's literal expression: "bit 26 is NOT set" (R157). -/
def domainHash (len : BitVec 4) : Word :=
  ((1 : Word) <<< 24) ||| ((len.setWidth 32 >>> 4) <<< 25)

/-- The tag comparison of DEC_FINAL: XOR and OR over all 16 bytes, then one zero check (spec/43_decrypt.md R201). -/
def tagDiff (computed expected : Quad) : Byte :=
  (List.finRange 16).foldl (fun diff k => diff ||| (computed.byte k ^^^ expected.byte k)) 0x00

end Sys2Proof.Machine
end

