-- ==== Sys2Proof/Machine/Permutation.lean ====
section
/-! DEFINITION. The permutation engine (spec/40_permutation.md) and the command PERMUTE.

Each step maps a sponge state to a new one and reads all its inputs before any output is written (R124, R285): a
Lean function does so by being a function of the old state. -/

namespace Sys2Proof.Machine

/-- RC[r], the round constants, zero-extended to 32 bits (R120). -/
def roundConstant (r : Nat) : Word :=
  match r with
  | 0 => 0x058
  | 1 => 0x038
  | 2 => 0x3c0
  | 3 => 0x0d0
  | 4 => 0x120
  | 5 => 0x014
  | 6 => 0x060
  | 7 => 0x02c
  | 8 => 0x380
  | 9 => 0x0f0
  | 10 => 0x1a0
  | 11 => 0x012
  | _ => 0

/-- The column parities S[i] ^ S[i+4] ^ S[i+8] (R121). -/
def parity (S : Sponge) : Quad := (S.p0.xor S.p1).xor S.p2

/-- From the parity of a column to its e[i]: rotated by 18, then XORed with itself rotated by 9 more (R121). -/
def thetaEffect (p : Quad) : Quad :=
  let e := p.map (fun w => rotr32 w 18)
  e.xor (e.map (fun w => rotr32 w 9))

/-- The four words moved one lane on: lane i gets the word of lane (i - 1) mod 4. -/
def shiftLane (q : Quad) : Quad := ⟨q.w3, q.w0, q.w1, q.w2⟩

/-- θ (R121): word j gets e of lane (j - 1) mod 4, in every plane. -/
def theta (S : Sponge) : Sponge :=
  let d := shiftLane (thetaEffect (parity S))
  ⟨S.p0.xor d, S.p1.xor d, S.p2.xor d⟩

/-- ρ-west (R122): (S[4], S[5], S[6], S[7]) <- (S[7], S[4], S[5], S[6]). -/
def rhoWest (S : Sponge) : Sponge := { S with p1 := shiftLane S.p1 }

/-- ι in round r (R123): S[0] <- S[0] ^ RC[r]. -/
def iota (r : Nat) (S : Sponge) : Sponge :=
  { S with p0 := { S.p0 with w0 := S.p0.w0 ^^^ roundConstant r } }

/-- χ's S[i], from a = S[i], b = S[i+4] and the unrotated S[i+8] (R124). -/
def chiRow0 (a b x : Word) : Word :=
  let c := rotr32 x 21
  a ^^^ (c &&& ~~~b)

/-- χ's S[i+4] (R124). -/
def chiRow1 (a b x : Word) : Word :=
  let c := rotr32 x 21
  rotr32 ((a &&& ~~~c) ^^^ b) 31

/-- χ's S[i+8] (R124). -/
def chiRow2 (a b x : Word) : Word :=
  let c := rotr32 x 21
  rotr32 ((b &&& ~~~a) ^^^ c) 24

/-- χ (R124), lane by lane. -/
def chi (S : Sponge) : Sponge :=
  ⟨Quad.map3 chiRow0 S.p0 S.p1 S.p2, Quad.map3 chiRow1 S.p0 S.p1 S.p2, Quad.map3 chiRow2 S.p0 S.p1 S.p2⟩

/-- ρ-east (R125): S[8] and S[10] swapped, S[9] and S[11] swapped. -/
def rhoEast (S : Sponge) : Sponge := { S with p2 := ⟨S.p2.w2, S.p2.w3, S.p2.w0, S.p2.w1⟩ }

/-- round(S, r) = rho_east(chi(iota(rho_west(theta(S)), r))) (R126). -/
def permRound (r : Nat) (S : Sponge) : Sponge := rhoEast (chi (iota r (rhoWest (theta S))))

/-- The first n rounds, round 0 first. -/
def permRounds : Nat → Sponge → Sponge
  | 0, S => S
  | n + 1, S => permRound n (permRounds n S)

/-- permute(S): rounds 0 to 11 in that order (R127). -/
def permute (S : Sponge) : Sponge := permRounds 12 S

/-- The pseudocode of PERMUTE (R131): one bare permutation of S, and OUT <- 0. PHASE and MODE keep their values. -/
def permuteEffect (s : State) : State := { s with sponge := permute s.sponge, out := Oct.zero }

/-- PERMUTE (R131). -/
def execPermute (s : State) : Result := s.command .permute permuteEffect

end Sys2Proof.Machine
end

