-- ==== Sys2Proof/Machine/Session.lean ====
section
/-! DEFINITION. The session commands INIT and ZEROIZE (spec/41_session.md R160 to R164), and the end of a block or
final command, which clears DIN and moves the phase machine (R155, R156). -/

namespace Sys2Proof.Machine

/-- PHASE and MODE take their new values (R155). -/
def State.goto (phase : Phase) (mode : Mode) (s : State) : State := { s with phase := phase, mode := mode }

/-- What the completion of a block or final command adds: DIN0..3 <- 0 (R156), and the phase machine's move. -/
def State.absorbed (phase : Phase) (mode : Mode) (s : State) : State :=
  { s.goto phase mode with din := Quad.zero }

/-- The pseudocode of INIT (R160): the header into S, one permutation; PHASE = READY and MODE = NONE. KEY and NONCE
are kept (R164). -/
def initEffect (na : Bool) (s : State) : State :=
  { s.goto .ready .none with sponge := permute (s.header na), out := Oct.zero }

/-- INIT (R160). -/
def execInit (na : Bool) (s : State) : Result := s.command (.init na) (initEffect na)

/-- The pseudocode of ZEROIZE (R163): S, KEY, NONCE, DIN, TAGIN, OUT and scratch to 0; PHASE = IDLE, MODE = NONE,
TAG_OK = 0. ERR, ERR_CODE and IRQ_EN are not changed. -/
def zeroizeEffect (s : State) : State :=
  { s.goto .idle .none with
    sponge := Sponge.zero, key := Oct.zero, nonce := Quad.zero, din := Quad.zero, tagin := Quad.zero,
    out := Oct.zero, scratch := Scratch.zero, tagOk := false }

/-- ZEROIZE (R163). -/
def execZeroize (s : State) : Result := s.command .zeroize zeroizeEffect

end Sys2Proof.Machine
end

