-- ==== Sys2Proof/Machine/Decrypt.lean ====
section
/-! DEFINITION. The decrypt family (spec/43_decrypt.md R200, R201). -/

namespace Sys2Proof.Machine

/-- The pseudocode of DEC_BLOCK (R200): the recovered plaintext is put out and absorbed. -/
def decBlockEffect (s : State) : State :=
  let c := s.dinBytes
  let sq := rate s.sponge
  let p := c.xor sq
  let buf := sq.xor p
  { s.absorbed .absorb .dec with sponge := permute (setRate buf s.sponge), out := ⟨p, Quad.zero⟩ }

/-- DEC_BLOCK (R200). -/
def execDecBlock (s : State) : Result := s.command .decBlock decBlockEffect

/-- P of DEC_FINAL after its step 4 (R201): the recovered plaintext in bytes below LEN, byte LEN "set after the XOR,
not XORed" to 0x80, zero above. -/
def decFinalBlock (len : BitVec 4) (din : Quad) (S : Sponge) : Quad :=
  setByte ((mask din len).xor (mask (rate S) len)) len 0x80

/-- S as DEC_FINAL gives it to its first permutation (R201, steps 5 and 6). -/
def decFinalAbsorb (len : BitVec 4) (din : Quad) (S : Sponge) : Sponge :=
  xorLast (domainCipher len) (setRate ((rate S).xor (decFinalBlock len din S)) S)

/-- The pseudocode of DEC_FINAL (R201): the tag is computed and compared over all 16 bytes; on a match the plaintext is
put out and TAG_OK set; on a mismatch OUT is 0 and TAG_FAIL is raised. S is permuted twice, TAGIN and DIN are cleared,
PHASE = FINALIZED and MODE = DEC either way. -/
def decFinalEffect (len : BitVec 4) (s : State) : State :=
  let P := decFinalBlock len s.dinBytes s.sponge
  let pt := mask P len
  let S1 := permute (decFinalAbsorb len s.dinBytes s.sponge)
  let computed := rate S1
  let t := { s.absorbed .finalized .dec with sponge := permute S1, tagin := Quad.zero }
  if tagDiff computed s.tagInBytes = 0x00 then { t with out := ⟨pt, Quad.zero⟩, tagOk := true }
  else { t with out := Oct.zero, tagOk := false }.raise .tagFail

/-- DEC_FINAL (R201). -/
def execDecFinal (len : BitVec 4) (s : State) : Result := s.command (.decFinal len) (decFinalEffect len)

end Sys2Proof.Machine
end

