-- ==== Sys2Proof/Machine/Encrypt.lean ====
section
/-! DEFINITION. The encrypt family (spec/42_encrypt.md R180, R181). -/

namespace Sys2Proof.Machine

/-- The pseudocode of ENC_BLOCK (R180), its steps in order: m, sq, buf, c, SetRate, Permute. -/
def encBlockEffect (s : State) : State :=
  let m := s.dinBytes
  let sq := rate s.sponge
  let buf := sq.xor m
  let c := m.xor sq
  { s.absorbed .absorb .enc with sponge := permute (setRate buf s.sponge), out := ⟨c, Quad.zero⟩ }

/-- ENC_BLOCK (R180). -/
def execEncBlock (s : State) : Result := s.command .encBlock encBlockEffect

/-- S as ENC_FINAL gives it to its first permutation: the padded block absorbed and the cipher domain word applied
(R181, steps 1 to 4). -/
def encFinalAbsorb (len : BitVec 4) (din : Quad) (S : Sponge) : Sponge :=
  xorLast (domainCipher len) (setRate ((rate S).xor (pad din len)) S)

/-- The pseudocode of ENC_FINAL (R181): the final ciphertext in OUT0..3, bytes at positions at or above LEN zero, and
the tag, squeezed between two permutations, in OUT4..7. -/
def encFinalEffect (len : BitVec 4) (s : State) : State :=
  let P := pad s.dinBytes len
  let sq := rate s.sponge
  let c := mask (P.xor sq) len
  let S1 := permute (encFinalAbsorb len s.dinBytes s.sponge)
  let tag := rate S1
  { s.absorbed .finalized .enc with sponge := permute S1, out := ⟨c, tag⟩ }

/-- ENC_FINAL (R181). -/
def execEncFinal (len : BitVec 4) (s : State) : Result := s.command (.encFinal len) (encFinalEffect len)

end Sys2Proof.Machine
end

