-- ==== Sys2Proof/Machine/Hash.lean ====
section
/-! DEFINITION. The hash family (spec/44_hash.md R220, R221). -/

namespace Sys2Proof.Machine

/-- The pseudocode of HASH_BLOCK (R220): the block is absorbed; no output. -/
def hashBlockEffect (s : State) : State :=
  let m := s.dinBytes
  { s.absorbed .absorb .hash with
    sponge := permute (setRate ((rate s.sponge).xor m) s.sponge), out := Oct.zero }

/-- HASH_BLOCK (R220). -/
def execHashBlock (s : State) : Result := s.command .hashBlock hashBlockEffect

/-- S as HASH_FINAL gives it to its first permutation (R221, steps 1 to 3). -/
def hashFinalAbsorb (len : BitVec 4) (din : Quad) (S : Sponge) : Sponge :=
  xorLast (domainHash len) (setRate ((rate S).xor (pad din len)) S)

/-- The pseudocode of HASH_FINAL (R221): two 16-byte squeezes, each followed by a permutation. -/
def hashFinalEffect (len : BitVec 4) (s : State) : State :=
  let S1 := permute (hashFinalAbsorb len s.dinBytes s.sponge)
  let S2 := permute S1
  { s.absorbed .finalized .hash with sponge := permute S2, out := ⟨rate S1, rate S2⟩ }

/-- HASH_FINAL (R221). -/
def execHashFinal (len : BitVec 4) (s : State) : Result := s.command (.hashFinal len) (hashFinalEffect len)

end Sys2Proof.Machine
end

