-- ==== Sys2Proof/Machine/Datapath.lean ====
section
/-! DEFINITION. The hidden state during the BUSY window: sequencer step, round counter and scratch (spec/10_state.md
R43). "None of this is host-readable", and no result is taken from it: S, OUT and the flags are written at the
completion edge by the command's own meaning (spec/41_session.md R156). -/

namespace Sys2Proof.Machine

/-- The round counter after `k` cycles of the window: with P_PERM_CYCLES = 12 "one round per cycle ... stepping 0 to
11" (spec/40_permutation.md R129).
DESIGN CHOICE (log entry 6): for another P_PERM_CYCLES the rounds are spread evenly. Safe: nothing reads it. -/
def roundAt (p : Params) (i : Instr) (k : Nat) : Nat :=
  if k < loadCyclesOf i then 0
  else (12 * ((k - loadCyclesOf i) % p.permCycles)) / p.permCycles

/-- The scratch a command loads in its first cycle: the squeezed rate, the absorbed buffer and the padded block of its
pseudocode. DESIGN CHOICE (log entry 7). -/
def loadScratch (i : Instr) (din : Quad) (S : Sponge) : Scratch :=
  match i with
  | .init _ => Scratch.zero
  | .encBlock => { Scratch.zero with squeezed := rate S, buf := (rate S).xor din }
  | .encFinal len => ⟨rate S, (rate S).xor (pad din len), pad din len, Quad.zero⟩
  | .decBlock => { Scratch.zero with squeezed := rate S, buf := din }
  | .decFinal len => ⟨mask (rate S) len, rate S, decFinalBlock len din S, Quad.zero⟩
  | .hashBlock => { Scratch.zero with squeezed := rate S, buf := (rate S).xor din }
  | .hashFinal len => ⟨rate S, (rate S).xor (pad din len), pad din len, Quad.zero⟩
  | .zeroize => Scratch.zero
  | .permute => Scratch.zero

/-- The computed tag of DEC_FINAL, squeezed at the boundary of its two permutations (R43, R286); 0 otherwise. -/
def scratchTag (p : Params) (i : Instr) (k : Nat) (din : Quad) (S : Sponge) : Quad :=
  match i with
  | .init _ => Quad.zero
  | .encBlock => Quad.zero
  | .encFinal _ => Quad.zero
  | .decBlock => Quad.zero
  | .decFinal len => if 1 + p.permCycles ≤ k then rate (permute (decFinalAbsorb len din S)) else Quad.zero
  | .hashBlock => Quad.zero
  | .hashFinal _ => Quad.zero
  | .zeroize => Quad.zero
  | .permute => Quad.zero

/-- The scratch after `k` cycles of the window: 0 until the load cycle has passed. -/
def scratchAt (p : Params) (i : Instr) (k : Nat) (din : Quad) (S : Sponge) : Scratch :=
  if k = 0 then Scratch.zero else { loadScratch i din S with tag := scratchTag p i k din S }

/-- The hidden state after `k` cycles of the window of command `i`. -/
def State.atStep (i : Instr) (k : Nat) (s : State) : State :=
  { s with
    seqStep := k, round := roundAt s.params i k, scratch := scratchAt s.params i k s.din s.sponge }

/-- One cycle of the window that does not complete the command.
DESIGN CHOICE (log entry 22): the sequencer step, which the spec only names (R43), counts the cycles of the window that
have passed, from 0 at acceptance. -/
def State.tick (i : Instr) (s : State) : State := s.atStep i (s.seqStep + 1)

/-- The cycle at whose end the command completes: with latency L, the L-th of the window
(spec/70_reset_and_hazards.md R280). -/
def State.lastCycle (i : Instr) (s : State) : Bool := decide (latency s.params i ≤ s.seqStep + 1)

end Sys2Proof.Machine
end

