-- ==== Sys2Proof/Machine/Dispatch.lean ====
section
/-! DEFINITION. One arm for each command. -/

namespace Sys2Proof.Machine

def exec (i : Instr) (s : State) : Host.Outcome State Fault Refusal :=
  match i with
  | .init na => Sys2Proof.Machine.execInit na s
  | .encBlock => Sys2Proof.Machine.execEncBlock s
  | .encFinal len => Sys2Proof.Machine.execEncFinal len s
  | .decBlock => Sys2Proof.Machine.execDecBlock s
  | .decFinal len => Sys2Proof.Machine.execDecFinal len s
  | .hashBlock => Sys2Proof.Machine.execHashBlock s
  | .hashFinal len => Sys2Proof.Machine.execHashFinal len s
  | .zeroize => Sys2Proof.Machine.execZeroize s
  | .permute => Sys2Proof.Machine.execPermute s

end Sys2Proof.Machine
end

