-- ==== Sys2Proof/Machine/Clock.lean ====
section
/-! DEFINITION. One clock cycle: what the outside world drives, what the block drives back, and the state after the
rising edge that ends the cycle (spec/20_memory.md R61, R62, spec/60_exceptions.md R250, spec/70_reset_and_hazards.md
R270, R280). -/

namespace Sys2Proof.Machine

/-- A function of the next state, where there is one. -/
def mapNext (f : State → State) (r : Result) : Result :=
  match r with
  | .next s => .next (f s)
  | .fault e => .fault e
  | .refused e => .refused e

/-- One clock cycle with input `c`.

With rst_i = 1 every register takes its reset value (R270). Otherwise the access is judged on the state at the start
of the cycle (R250), and its effect, the engine's progress and its error event follow in that order: a completion's
set of DONE or ERR wins over a W1C clear in the same cycle (R32), and ERR_CODE takes the access's code where a failing
DEC_FINAL completes in the cycle of a refused access (R250).

At the last cycle of its window the latched command leaves the latch and is carried out by `exec`, "as one atomic step
at that edge" (spec/41_session.md R156). -/
def clockEdge (c : Cycle) (s : State) : Result :=
  if c.rst then .next { State.resetWith s.params with port := portOut c s, host := s.host }
  else
    let e := accessError c s
    let s1 := { accessEffect c s with port := portOut c s }
    match s.cmd with
    | none => .next (s1.raiseIf e)
    | some i =>
      if s.lastCycle i then mapNext (State.raiseIf e) (exec i s1.release)
      else .next ((s1.tick i).raiseIf e)

/-- What the outside world drives in the next cycle: no access where nothing is listed. -/
def State.nextCycle (s : State) : Cycle :=
  match s.host with
  | [] => Cycle.idle
  | c :: _ => c

/-- The state with that cycle taken from the list. -/
def State.popHost (s : State) : State :=
  match s.host with
  | [] => s
  | _ :: cs => { s with host := cs }

/-- The state from which the very next step carries out the command word `v` (log entry 5). Where R154 accepts the
word, the command is in the latch, accepted, at the last cycle of its window with no access presented; where R154
rejects it, it is presented on the bus, and the next step raises its error. A command in progress is dropped. -/
def State.stageCommand (v : Word) (s : State) : State :=
  let t := s.release
  match decode t.params v with
  | none => { t with host := Cycle.write (offsetOf .cmd) v :: s.host }
  | some i =>
    match t.checkCommand (some i) with
    | some _ => { t with host := Cycle.write (offsetOf .cmd) v :: s.host }
    | none => { (t.accept i).atStep i (latency t.params i - 1) with host := Cycle.idle :: s.host }

end Sys2Proof.Machine
end

