-- ==== Sys2Proof/Machine/Step.lean ====
section
/-! DEFINITION. The step: one clock cycle with the next input the outside world has listed. -/

namespace Sys2Proof.Machine

/-- One clock cycle. -/
def step (s : State) : Host.Outcome State Fault Refusal := clockEdge s.nextCycle s.popHost

/-- `s` with the command word numbered as spec/opcode_table.json numbers it placed so that the very next step runs it
(`State.stageCommand`). -/
def State.withFetchWord (s : State) (nbits w : Nat) : State := s.stageCommand (tableWord nbits w)

end Sys2Proof.Machine
end

