-- ==== Sys2Proof/Safety.lean ====
section
/-! DEFINITION. The words the claims are made in: the invariant of the machine, runs, what one command sequence does
to a whole message, and what two states must agree on to look the same from outside or to take the same time. -/

namespace Sys2Proof.Machine

/-! ### The invariant -/

/-- MODE "is NONE in IDLE and READY, and it is the locked mode in ABSORB and FINALIZED" (spec/10_state.md R33). -/
def State.modeFits (s : State) : Prop := (s.phase = .idle ∨ s.phase = .ready) ↔ s.mode = .none

/-- ERR is 1 exactly while ERR_CODE holds a code (R28, R34). -/
def State.errFits (s : State) : Prop := s.err = true ↔ s.errCode ≠ .none

/-- TAG_OK is 1 only after a DEC_FINAL, whose OUT4..7 are 0 (R29, R40). -/
def State.tagFits (s : State) : Prop :=
  s.tagOk = true → s.phase = .finalized ∧ s.mode = .dec ∧ s.out.hi = Quad.zero

/-- With no session and no debug window, S and OUT are 0: nothing of an earlier session is left (R20, R41). -/
def State.idleClean (s : State) : Prop :=
  s.params.debug = false → s.phase = .idle → s.sponge = Sponge.zero ∧ s.out = Oct.zero

/-- With no command in progress all hidden state is 0 (R44 for the scratch; the rest is log entry 23). With a command in progress it is one the machine
could accept, its window is not over, DONE, TAG_OK and OUT are 0 (R27, R29, R40), and the hidden state is what the
datapath holds at that step. -/
def State.hiddenFits (s : State) : Prop :=
  match s.cmd with
  | none => s.seqStep = 0 ∧ s.round = 0 ∧ s.scratch = Scratch.zero
  | some i =>
    i.wellFormed s.params = true ∧ legalCommand i s.phase s.mode = true ∧ s.seqStep < latency s.params i ∧
      s.done = false ∧ s.tagOk = false ∧ s.out = Oct.zero ∧
      s.round = roundAt s.params i s.seqStep ∧ s.scratch = scratchAt s.params i s.seqStep s.din s.sponge

/-- The invariant of the machine. -/
structure State.Inv (s : State) : Prop where
  params : s.params.wf = true
  mode : s.modeFits
  err : s.errFits
  tag : s.tagFits
  idle : s.idleClean
  hidden : s.hiddenFits

/-! ### Runs -/

/-- `n` clock cycles. -/
def runFor : Nat → State → Result
  | 0, s => .next s
  | n + 1, s =>
    match step s with
    | .next t => runFor n t
    | .fault e => .fault e
    | .refused e => .refused e

/-- What a command leaves that the host can use later: S, the input and output registers, the phase machine, TAG_OK,
DONE and the latch. ERR, ERR_CODE, IRQ_EN and the port are left out, because accesses made during the BUSY window
move them. -/
structure Outcome where
  sponge : Sponge
  key : Oct
  nonce : Quad
  din : Quad
  tagin : Quad
  out : Oct
  phase : Phase
  mode : Mode
  tagOk : Bool
  done : Bool
  cmd : Option Instr
  deriving DecidableEq, Repr

def State.outcome (s : State) : Outcome :=
  ⟨s.sponge, s.key, s.nonce, s.din, s.tagin, s.out, s.phase, s.mode, s.tagOk, s.done, s.cmd⟩

/-! ### The phase machine and the legal words, written out from the spec's tables -/

/-- The mode of a block or final command; none for the others (spec/41_session.md R155). -/
def sessionMode : Instr → Option Mode
  | .init _ => none
  | .encBlock => some .enc
  | .encFinal _ => some .enc
  | .decBlock => some .dec
  | .decFinal _ => some .dec
  | .hashBlock => some .hash
  | .hashFinal _ => some .hash
  | .zeroize => none
  | .permute => none

/-- PHASE and MODE after the completion of a command (R155). -/
def phaseAfter (i : Instr) (phase : Phase) (mode : Mode) : Phase × Mode :=
  match i with
  | .init _ => (.ready, .none)
  | .encBlock => (.absorb, .enc)
  | .encFinal _ => (.finalized, .enc)
  | .decBlock => (.absorb, .dec)
  | .decFinal _ => (.finalized, .dec)
  | .hashBlock => (.absorb, .hash)
  | .hashFinal _ => (.finalized, .hash)
  | .zeroize => (.idle, .none)
  | .permute => (phase, mode)

/-- The words spec/30_encoding.md R96 counts: 2 for INIT, 1 each for the block commands and ZEROIZE, 16 each for the
final commands, and PERMUTE's where P_DEBUG = 1. -/
def legalWords (p : Params) : List Word :=
  [0x00000001, 0x00010001, 0x00000002, 0x00000004, 0x00000006, 0x00000008] ++
    ((List.range 16).flatMap fun len =>
      [BitVec.ofNat 32 (3 + 256 * len), BitVec.ofNat 32 (5 + 256 * len), BitVec.ofNat 32 (7 + 256 * len)]) ++
    (if p.debug then [0x00000009] else [])

/-! ### Final blocks, byte by byte -/

/-- S as a final command gives it to its first permutation (spec/43_decrypt.md R201, first corner case): rate byte j is
`absorbed j` below LEN, the keystream byte XOR 0x80 at LEN, and the keystream byte above it; the domain word is XORed
into S[11]. -/
def finalInput (domain : Word) (absorbed : Fin 16 → Byte) (len : BitVec 4) (S : Sponge) : Sponge :=
  ⟨Quad.ofBytes fun j =>
      if j.val < len.toNat then absorbed j
      else if j.val = len.toNat then S.p0.byte j ^^^ 0x80
      else S.p0.byte j,
    S.p1, { S.p2 with w3 := S.p2.w3 ^^^ domain }⟩

/-- Two words of S exchanged. -/
def swapWords (j k : Fin 12) (S : Sponge) : Sponge := (S.set j (S.get k)).set k (S.get j)

/-! ### Whole messages (R159): one block command for each 16-byte block, then one final command -/

/-- The next state an instruction answers, where it answers one. -/
def nextState (r : Result) : Option State :=
  match r with
  | .next s => some s
  | .fault _ => none
  | .refused _ => none

/-- DIN0..3 written with a block, no command being in progress. -/
def State.withDin (b : Quad) (s : State) : State := { s with din := b }

/-- A run of one block command over a list of blocks: OUT0..3 after each, and the state at the end. -/
def runBlocks (i : Instr) : List Quad → State → Option (List Quad × State)
  | [], s => some ([], s)
  | b :: bs, s =>
    match nextState (exec i (s.withDin b)) with
    | none => none
    | some t =>
      match runBlocks i bs t with
      | none => none
      | some (cs, u) => some (t.out.lo :: cs, u)

/-- The result of a whole Encrypt: the ciphertext blocks, the final ciphertext and the tag, and the state at the end. -/
structure Sealed where
  blocks : List Quad
  last : Quad
  tag : Quad
  final : State
  deriving DecidableEq, Repr

/-- Encrypt(session, buf) as R159 maps it: the full blocks, then the last `len` bytes. -/
def encryptMessage (blocks : List Quad) (last : Quad) (len : BitVec 4) (s : State) : Option Sealed :=
  match runBlocks .encBlock blocks s with
  | none => none
  | some (cs, t) =>
    match nextState (exec (.encFinal len) (t.withDin last)) with
    | none => none
    | some u => some ⟨cs, u.out.lo, u.out.hi, u⟩

/-- Decrypt(session, buf, tag) as R159 maps it: the plaintext blocks, and the state at the end. -/
def decryptMessage (blocks : List Quad) (last : Quad) (len : BitVec 4) (tag : Quad) (s : State) :
    Option (List Quad × State) :=
  match runBlocks .decBlock blocks s with
  | none => none
  | some (ms, t) =>
    match nextState (exec (.decFinal len) { t.withDin last with tagin := tag }) with
    | none => none
    | some u => some (ms, u)

/-- Hash(session, msg) as R159 maps it: the digest, and the state at the end. -/
def hashMessage (blocks : List Quad) (last : Quad) (len : BitVec 4) (s : State) : Option (Oct × State) :=
  match runBlocks .hashBlock blocks s with
  | none => none
  | some (_, t) =>
    match nextState (exec (.hashFinal len) (t.withDin last)) with
    | none => none
    | some u => some (u.out, u)

/-! ### What two states agree on -/

/-- The two states agree on everything the timing may depend on: the parameters, the phase machine, the command in
progress and how far it is, and the accesses still to come. KEY, NONCE, DIN, TAGIN, S and OUT may differ. -/
def sameControl (s t : State) : Prop :=
  s.params = t.params ∧ s.phase = t.phase ∧ s.mode = t.mode ∧ s.cmd = t.cmd ∧ s.seqStep = t.seqStep ∧ s.host = t.host

/-- The two states agree on everything the block lets the host see: the flags, OUT, IRQ_EN, and S only through the
debug window. KEY, NONCE, DIN, TAGIN, the scratch and, with P_DEBUG = 0, S may differ. -/
def sameVisible (s t : State) : Prop :=
  s.params = t.params ∧ s.out = t.out ∧ s.done = t.done ∧ s.err = t.err ∧ s.tagOk = t.tagOk ∧ s.phase = t.phase ∧
    s.mode = t.mode ∧ s.errCode = t.errCode ∧ s.doneIe = t.doneIe ∧ s.errIe = t.errIe ∧ s.busy = t.busy ∧
    (s.params.debug = true → s.sponge = t.sponge)

/-- A write with bit `b` set to the register STATUS, presented in the cycle. -/
def Cycle.clearsStatusBit (c : Cycle) (b : Nat) : Prop :=
  c.req = true ∧ c.we = true ∧ c.addr = offsetOf .status ∧ c.wdata.getLsbD b = true

/-- A write to the register `r`, presented in the cycle. -/
def Cycle.writesReg (c : Cycle) (p : Params) (r : Reg) : Prop :=
  c.req = true ∧ c.we = true ∧ regAt p c.addr = some r

end Sys2Proof.Machine
end

