-- ==== Sys2Proof/Certificates/Slice0/Obligations.lean ====
section
/-! DEFINITION. The statements for the provers. "Accepted" is said by conditions on the state alone: no command in
progress (`s.cmd = none`) and the phase machine's condition of spec/41_session.md R155. The block has no data memory
(spec/20_memory.md R60), so an equation of whole states is the whole frame: every register, flag and hidden field not
named in it keeps its value. Where such an equation sets `seqStep` and `round` to 0 at the acceptance or completion of a
command, those two values are the model's choice (log entries 6, 22 and 23). What an access does is said of `busAccess`;
`Obligations.StepPresentsCommandWord` and `Obligations.StepRunsLatchedInstruction` say that a step makes it. -/

open Sys2Proof Sys2Proof.Machine

/-! ### Encoding -/

/-- R102, the six encoding examples: three words of commands, two ILLEGAL words, and 0x00000009 with and without
P_DEBUG. -/
def Obligations.ExampleWordsDecode : Prop :=
  ∀ p : Params,
    encode (.encFinal 13) = 0x00000D03 ∧ decode p 0x00000D03 = some (.encFinal 13) ∧
    encode (.init true) = 0x00010001 ∧ decode p 0x00010001 = some (.init true) ∧
    encode (.hashFinal 15) = 0x00000F07 ∧ decode p 0x00000F07 = some (.hashFinal 15) ∧
    decode p 0x00000D02 = none ∧ decode p 0x00000010 = none ∧
    (p.debug = true → decode p 0x00000009 = some .permute) ∧ (p.debug = false → decode p 0x00000009 = none)

/-- Decoding an encoded command that the implementation has gives the command back, whatever its LEN and NA (R90 to
R96). -/
def Obligations.DecodeInvertsEncode : Prop :=
  ∀ (p : Params) (i : Instr), i.wellFormed p = true → decode p (encode i) = some i

/-- A word that decodes is the word of its command, bit for bit: "No reserved bit is ignored" (R95, R96). -/
def Obligations.DecodedWordIsEncoding : Prop :=
  ∀ (p : Params) (w : Word) (i : Instr), decode p w = some i → encode i = w ∧ i.wellFormed p = true

/-- R96: the legal words are exactly the ones it counts, 54 + P_DEBUG of them. -/
def Obligations.LegalWordsAreCounted : Prop :=
  ∀ p : Params, (legalWords p).Nodup ∧ (legalWords p).length = 54 + (if p.debug then 1 else 0) ∧
    ∀ w : Word, (decode p w).isSome = true ↔ w ∈ legalWords p

/-- R243: the words `Decode` rejects are those with a reserved bit set, a reserved OP, OP 0x9 without P_DEBUG, LEN ≠ 0 on
a non-final command, or NA ≠ 0 on a command other than INIT; and a CMD write of one with BUSY = 0 raises ILLEGAL_CMD and
has no other effect, in every phase. -/
def Obligations.IllegalWordsRaiseIllegalCmd : Prop :=
  ∀ (s : State) (w : Word), s.cmd = none →
    (decode s.params w = none ↔
      (w &&& 0xFFFEF0F0 ≠ 0 ∨ opField w = 0x0 ∨ 0xA ≤ opField w ∨ (opField w = 0x9 ∧ s.params.debug = false) ∨
        (lenField w ≠ 0 ∧ opField w ≠ 0x3 ∧ opField w ≠ 0x5 ∧ opField w ≠ 0x7) ∨
        (naField w = true ∧ opField w ≠ 0x1))) ∧
    (decode s.params w = none → busAccess (Cycle.write 0x04 w) s = { s with err := true, errCode := .illegalCmd })

/-! ### Words and bytes -/

/-- R8: the right rotation by its formula, what it does to each bit, and that it is a left rotation by 32 − n. -/
def Obligations.RotateRightMovesBits : Prop :=
  ∀ (x : Word) (n : Nat), 0 < n → n < 32 →
    rotr32 x n = (x >>> n) ||| (x <<< (32 - n)) ∧
    (∀ i, i < 32 → (rotr32 x n).getLsbD i = x.getLsbD ((i + n) % 32)) ∧ rotr32 x n = x.rotateLeft (32 - n)

/-- R151 and R152: rate byte 4k+j is bits 8j+7:8j of S[k], and SetRate loads S[0..3] little-endian and leaves
S[4..11]. -/
def Obligations.RateIsLittleEndian : Prop :=
  (∀ (S : Sponge) (k j : Fin 4),
    (rate S).byte ⟨4 * k.val + j.val, by omega⟩ = (S.get ⟨k.val, by omega⟩).extractLsb' (8 * j.val) 8) ∧
  (∀ (S : Sponge) (b : Quad) (k : Fin 4),
    (setRate b S).get ⟨k.val, by omega⟩ =
      le32 (b.byte ⟨4 * k.val, by omega⟩) (b.byte ⟨4 * k.val + 1, by omega⟩) (b.byte ⟨4 * k.val + 2, by omega⟩)
        (b.byte ⟨4 * k.val + 3, by omega⟩)) ∧
  ∀ (S : Sponge) (b : Quad) (k : Fin 12), 4 ≤ k.val → (setRate b S).get k = S.get k

/-- R153, the two byte formulas: Mask keeps the bytes below L and Pad sets byte L to 0x80; and every final command
reads its block as Mask(DinBytes(), LEN), so that what stands in DIN at or above LEN changes nothing it leaves. -/
def Obligations.TailBytesAreIgnored : Prop :=
  (∀ (b : Quad) (len : BitVec 4) (j : Fin 16),
    (mask b len).byte j = (if j.val < len.toNat then b.byte j else 0x00) ∧
    (pad b len).byte j =
      (if j.val < len.toNat then b.byte j else if j.val = len.toNat then 0x80 else 0x00)) ∧
  ∀ (s : State) (len : BitVec 4), s.cmd = none →
    (legalCommand (.encFinal len) s.phase s.mode = true →
      exec (.encFinal len) { s with din := mask s.din len } = exec (.encFinal len) s) ∧
    (legalCommand (.decFinal len) s.phase s.mode = true →
      exec (.decFinal len) { s with din := mask s.din len } = exec (.decFinal len) s) ∧
    (legalCommand (.hashFinal len) s.phase s.mode = true →
      exec (.hashFinal len) { s with din := mask s.din len } = exec (.hashFinal len) s)

/-- R157: the literal domain-separation expressions, and their values for every LEN that can be encoded. -/
def Obligations.DomainWordsDifferInBit26 : Prop :=
  ∀ len : BitVec 4,
    domainCipher len = ((1 : Word) <<< 24) ||| ((len.setWidth 32 >>> 4) <<< 25) ||| ((1 : Word) <<< 26) ∧
    domainHash len = ((1 : Word) <<< 24) ||| ((len.setWidth 32 >>> 4) <<< 25) ∧
    domainCipher len = 0x05000000 ∧ domainHash len = 0x01000000

/-! ### The permutation -/

/-- R121: θ word by word, the second form of its e[i], and its example. -/
def Obligations.ThetaMixesColumns : Prop :=
  (∀ (S : Sponge) (j : Fin 12),
    let p := fun i : Fin 4 =>
      S.get ⟨i.val, by omega⟩ ^^^ S.get ⟨i.val + 4, by omega⟩ ^^^ S.get ⟨i.val + 8, by omega⟩
    let e := fun i : Fin 4 => rotr32 (p i) 18 ^^^ rotr32 (rotr32 (p i) 18) 9
    (theta S).get j = S.get j ^^^ e ⟨(j.val + 3) % 4, by omega⟩ ∧
      ∀ i : Fin 4, e i = rotr32 (p i) 18 ^^^ rotr32 (p i) 27) ∧
  thetaEffect (parity ⟨⟨0, 1, 2, 3⟩, ⟨4, 5, 6, 7⟩, ⟨8, 9, 10, 11⟩⟩) =
    ⟨0x00030180, 0x000341a0, 0x000381c0, 0x0003c1e0⟩ ∧
  theta ⟨⟨0, 1, 2, 3⟩, ⟨4, 5, 6, 7⟩, ⟨8, 9, 10, 11⟩⟩ =
    ⟨⟨0x0003c1e0, 0x00030181, 0x000341a2, 0x000381c3⟩, ⟨0x0003c1e4, 0x00030185, 0x000341a6, 0x000381c7⟩,
      ⟨0x0003c1e8, 0x00030189, 0x000341aa, 0x000381cb⟩⟩

/-- R122, R123 and R125: the plane shifts, with the swap chain R122 gives as equivalent, and the round constant. -/
def Obligations.ShiftsAndConstantMoveTheNamedWords : Prop :=
  ∀ S : Sponge,
    ((rhoWest S).p0 = S.p0 ∧ (rhoWest S).p2 = S.p2 ∧ (rhoWest S).get 4 = S.get 7 ∧ (rhoWest S).get 5 = S.get 4 ∧
      (rhoWest S).get 6 = S.get 5 ∧ (rhoWest S).get 7 = S.get 6 ∧
      rhoWest S = swapWords 7 6 (swapWords 7 5 (swapWords 7 4 S))) ∧
    (∀ r : Nat, (iota r S).get 0 = S.get 0 ^^^ roundConstant r ∧ ∀ k : Fin 12, k ≠ 0 → (iota r S).get k = S.get k) ∧
    ((rhoEast S).p0 = S.p0 ∧ (rhoEast S).p1 = S.p1 ∧ rhoEast S = swapWords 9 11 (swapWords 8 10 S))

/-- R124: χ, each of a lane's three outputs from the lane's three inputs captured before any is written. -/
def Obligations.ChiUsesCapturedInputs : Prop :=
  ∀ (S : Sponge) (i : Fin 4),
    let a := S.get ⟨i.val, by omega⟩
    let b := S.get ⟨i.val + 4, by omega⟩
    let c := rotr32 (S.get ⟨i.val + 8, by omega⟩) 21
    (chi S).get ⟨i.val + 8, by omega⟩ = rotr32 ((b &&& ~~~a) ^^^ c) 24 ∧
    (chi S).get ⟨i.val + 4, by omega⟩ = rotr32 ((a &&& ~~~c) ^^^ b) 31 ∧
    (chi S).get ⟨i.val, by omega⟩ = a ^^^ (c &&& ~~~b)

/-- R120, R126 and R127: the twelve constants, the five steps of a round, the twelve rounds in order, and the examples
of R126 and R127. -/
def Obligations.PermuteIsTwelveRounds : Prop :=
  (List.range 12).map roundConstant =
    [0x058, 0x038, 0x3c0, 0x0d0, 0x120, 0x014, 0x060, 0x02c, 0x380, 0x0f0, 0x1a0, 0x012] ∧
  (∀ (S : Sponge) (r : Nat), permRound r S = rhoEast (chi (iota r (rhoWest (theta S))))) ∧
  (∀ S : Sponge, permute S = (List.range 12).foldl (fun T r => rhoEast (chi (iota r (rhoWest (theta T))))) S) ∧
  permRound 0 Sponge.zero = ⟨⟨0x58, 0, 0, 0⟩, ⟨0xb0, 0, 0, 0⟩, ⟨0, 0, 0, 0⟩⟩ ∧
  permute Sponge.zero =
    ⟨⟨0x89d5d88d, 0xa963fcbf, 0x1b232d19, 0xffa5a014⟩, ⟨0x36b18106, 0xafc7c1fe, 0xaee57cbe, 0xa77540bd⟩,
      ⟨0x2e86e870, 0xfef5b7c9, 0x8b4fadf2, 0x5e4f4062⟩⟩

/-- R128: permute is a bijection on 384-bit states. -/
def Obligations.PermuteIsBijective : Prop := Function.Bijective permute

/-! ### What each command does

Each of these answers a next state from every state in which the command is accepted, and gives all of it. That the
sequencer step and the round counter are 0 after it is the model's choice (log entry 23). -/

/-- INIT (R160, R161): the header, nonce first and key second, permuted; READY and NONE; KEY, NONCE, DIN, TAGIN, ERR,
ERR_CODE and IRQ_EN kept. It is accepted in every phase. -/
def Obligations.InitLoadsHeaderAndPermutes : Prop :=
  ∀ (s : State) (na : Bool), s.cmd = none →
    exec (.init na) s = .next
      { s with
        sponge := permute ⟨if na then ⟨0, 0, 0, 0⟩ else s.nonce, s.key.lo, s.key.hi⟩
        out := ⟨⟨0, 0, 0, 0⟩, ⟨0, 0, 0, 0⟩⟩, phase := .ready, mode := .none, done := true, tagOk := false
        cmd := none, seqStep := 0, round := 0, scratch := Scratch.zero }

/-- R160, second corner case, and R164: INIT with NA = 1 gives the same S as INIT with NA = 0 and NONCE = 0; INIT from
the same KEY and NONCE leaves the same S, phase and mode, whatever else the two states hold; and INIT keeps KEY and
NONCE. -/
def Obligations.InitRestartsTheSameSession : Prop :=
  (∀ s : State, s.cmd = none →
    ∃ t u, exec (.init true) s = .next t ∧ exec (.init false) { s with nonce := Quad.zero } = .next u ∧
      u.sponge = t.sponge ∧ t.nonce = s.nonce) ∧
  ∀ (s t : State) (na : Bool), s.cmd = none → t.cmd = none → s.key = t.key → s.nonce = t.nonce →
    ∃ u v, exec (.init na) s = .next u ∧ exec (.init na) t = .next v ∧ u.sponge = v.sponge ∧ u.phase = v.phase ∧
      u.mode = v.mode ∧ u.key = s.key ∧ u.nonce = s.nonce ∧ v.key = t.key ∧ v.nonce = t.nonce ∧ u.cmd = none ∧
      v.cmd = none

/-- ENC_BLOCK (R180): OUT0..3 is the plaintext XOR the rate, which is also what the rate holds before the permutation
("buf = c"); OUT4..7 and DIN are 0; ABSORB and ENC. -/
def Obligations.EncBlockEmitsAndAbsorbs : Prop :=
  ∀ s : State, s.cmd = none → (s.phase = .ready ∨ (s.phase = .absorb ∧ s.mode = .enc)) →
    exec .encBlock s = .next
      { s with
        sponge := permute { s.sponge with p0 := s.din.xor s.sponge.p0 }
        out := ⟨s.din.xor s.sponge.p0, ⟨0, 0, 0, 0⟩⟩, din := ⟨0, 0, 0, 0⟩, phase := .absorb, mode := .enc
        done := true, tagOk := false
        cmd := none, seqStep := 0, round := 0, scratch := Scratch.zero }

/-- ENC_FINAL (R181), byte by byte: OUT bytes below LEN are plaintext XOR keystream and the others 0; the tag is the
rate after the first of two permutations of the padded, domain-separated state. -/
def Obligations.EncFinalEmitsCiphertextAndTag : Prop :=
  ∀ (s : State) (len : BitVec 4), s.cmd = none → (s.phase = .ready ∨ (s.phase = .absorb ∧ s.mode = .enc)) →
    exec (.encFinal len) s = .next
      { s with
        sponge := permute (permute
          (finalInput 0x05000000 (fun j => s.din.byte j ^^^ s.sponge.p0.byte j) len s.sponge))
        out := ⟨Quad.ofBytes fun j => if j.val < len.toNat then s.din.byte j ^^^ s.sponge.p0.byte j else 0x00,
          (permute (finalInput 0x05000000 (fun j => s.din.byte j ^^^ s.sponge.p0.byte j) len s.sponge)).p0⟩
        din := ⟨0, 0, 0, 0⟩, phase := .finalized, mode := .enc, done := true, tagOk := false
        cmd := none, seqStep := 0, round := 0, scratch := Scratch.zero }

/-- DEC_BLOCK (R200): OUT0..3 is the ciphertext XOR the rate, and the rate before the permutation is the ciphertext
("buf = c"); OUT4..7 and DIN are 0; ABSORB and DEC. -/
def Obligations.DecBlockRecoversAndAbsorbs : Prop :=
  ∀ s : State, s.cmd = none → (s.phase = .ready ∨ (s.phase = .absorb ∧ s.mode = .dec)) →
    exec .decBlock s = .next
      { s with
        sponge := permute { s.sponge with p0 := s.din }
        out := ⟨s.din.xor s.sponge.p0, ⟨0, 0, 0, 0⟩⟩, din := ⟨0, 0, 0, 0⟩, phase := .absorb, mode := .dec
        done := true, tagOk := false
        cmd := none, seqStep := 0, round := 0, scratch := Scratch.zero }

/-- DEC_FINAL where TAGIN is the computed tag (R201): the plaintext bytes below LEN in OUT, zero elsewhere; TAG_OK = 1;
TAGIN and DIN 0; OUT4..7 are 0, not the computed tag; ERR and ERR_CODE are kept. -/
def Obligations.DecFinalReleasesPlaintextOnMatch : Prop :=
  ∀ (s : State) (len : BitVec 4), s.cmd = none → (s.phase = .ready ∨ (s.phase = .absorb ∧ s.mode = .dec)) →
    s.tagin = (permute (finalInput 0x05000000 s.din.byte len s.sponge)).p0 →
    exec (.decFinal len) s = .next
      { s with
        sponge := permute (permute (finalInput 0x05000000 s.din.byte len s.sponge))
        out := ⟨Quad.ofBytes fun j => if j.val < len.toNat then s.din.byte j ^^^ s.sponge.p0.byte j else 0x00,
          ⟨0, 0, 0, 0⟩⟩
        din := ⟨0, 0, 0, 0⟩, tagin := ⟨0, 0, 0, 0⟩, phase := .finalized, mode := .dec, done := true, tagOk := true
        cmd := none, seqStep := 0, round := 0, scratch := Scratch.zero }

/-- DEC_FINAL where TAGIN differs from the computed tag in any bit (R201, R246): OUT0..7 = 0, TAG_OK = 0, DONE = 1, ERR
and TAG_FAIL; S is permuted twice all the same. -/
def Obligations.DecFinalZeroesOutputOnMismatch : Prop :=
  ∀ (s : State) (len : BitVec 4), s.cmd = none → (s.phase = .ready ∨ (s.phase = .absorb ∧ s.mode = .dec)) →
    s.tagin ≠ (permute (finalInput 0x05000000 s.din.byte len s.sponge)).p0 →
    exec (.decFinal len) s = .next
      { s with
        sponge := permute (permute (finalInput 0x05000000 s.din.byte len s.sponge))
        out := ⟨⟨0, 0, 0, 0⟩, ⟨0, 0, 0, 0⟩⟩
        din := ⟨0, 0, 0, 0⟩, tagin := ⟨0, 0, 0, 0⟩, phase := .finalized, mode := .dec, done := true, tagOk := false
        err := true, errCode := .tagFail
        cmd := none, seqStep := 0, round := 0, scratch := Scratch.zero }

/-- HASH_BLOCK (R220): the block is absorbed with no output. -/
def Obligations.HashBlockAbsorbsOnly : Prop :=
  ∀ s : State, s.cmd = none → (s.phase = .ready ∨ (s.phase = .absorb ∧ s.mode = .hash)) →
    exec .hashBlock s = .next
      { s with
        sponge := permute { s.sponge with p0 := s.sponge.p0.xor s.din }
        out := ⟨⟨0, 0, 0, 0⟩, ⟨0, 0, 0, 0⟩⟩, din := ⟨0, 0, 0, 0⟩, phase := .absorb, mode := .hash
        done := true, tagOk := false
        cmd := none, seqStep := 0, round := 0, scratch := Scratch.zero }

/-- HASH_FINAL (R221): two squeezes, after the first and the second of three permutations of the padded state with the
hash domain word. -/
def Obligations.HashFinalSqueezesTwice : Prop :=
  ∀ (s : State) (len : BitVec 4), s.cmd = none → (s.phase = .ready ∨ (s.phase = .absorb ∧ s.mode = .hash)) →
    exec (.hashFinal len) s = .next
      { s with
        sponge := permute (permute (permute
          (finalInput 0x01000000 (fun j => s.din.byte j ^^^ s.sponge.p0.byte j) len s.sponge)))
        out := ⟨(permute (finalInput 0x01000000 (fun j => s.din.byte j ^^^ s.sponge.p0.byte j) len s.sponge)).p0,
          (permute (permute
            (finalInput 0x01000000 (fun j => s.din.byte j ^^^ s.sponge.p0.byte j) len s.sponge))).p0⟩
        din := ⟨0, 0, 0, 0⟩, phase := .finalized, mode := .hash, done := true, tagOk := false
        cmd := none, seqStep := 0, round := 0, scratch := Scratch.zero }

/-- ZEROIZE (R163): S and every sensitive register 0, IDLE and NONE; ERR, ERR_CODE and IRQ_EN kept. It is accepted in
every phase. -/
def Obligations.ZeroizeClearsSecrets : Prop :=
  ∀ s : State, s.cmd = none →
    exec .zeroize s = .next
      { s with
        sponge := ⟨⟨0, 0, 0, 0⟩, ⟨0, 0, 0, 0⟩, ⟨0, 0, 0, 0⟩⟩
        key := ⟨⟨0, 0, 0, 0⟩, ⟨0, 0, 0, 0⟩⟩, nonce := ⟨0, 0, 0, 0⟩, din := ⟨0, 0, 0, 0⟩, tagin := ⟨0, 0, 0, 0⟩
        out := ⟨⟨0, 0, 0, 0⟩, ⟨0, 0, 0, 0⟩⟩, phase := .idle, mode := .none, done := true, tagOk := false
        cmd := none, seqStep := 0, round := 0, scratch := Scratch.zero }

/-- PERMUTE (R131): with P_DEBUG = 1 one permutation of S, OUT 0, in every phase and with PHASE and MODE unchanged; with
P_DEBUG = 0 its word is ILLEGAL. -/
def Obligations.PermuteRunsOnlyWithDebug : Prop :=
  (∀ s : State, s.cmd = none → s.params.debug = true →
    exec .permute s = .next
      { s with
        sponge := permute s.sponge, out := ⟨⟨0, 0, 0, 0⟩, ⟨0, 0, 0, 0⟩⟩, done := true, tagOk := false
        cmd := none, seqStep := 0, round := 0, scratch := Scratch.zero }) ∧
  ∀ s : State, s.cmd = none → s.params.debug = false →
    exec .permute s = .next { s with err := true, errCode := .illegalCmd }

/-! ### Where a command is turned away -/

/-- R244: a block or final command in IDLE or FINALIZED, or of another mode than the locked one in ABSORB, raises
SEQ_ERR and has no other effect, whether taken as an instruction or as a CMD write of its word. -/
def Obligations.OutOfSequenceRaisesSeqErr : Prop :=
  ∀ (s : State) (i : Instr) (m : Mode) (w : Word), s.cmd = none → sessionMode i = some m →
    (s.phase = .idle ∨ s.phase = .finalized ∨ (s.phase = .absorb ∧ s.mode ≠ m)) → decode s.params w = some i →
    exec i s = .next { s with err := true, errCode := .seqErr } ∧
      busAccess (Cycle.write 0x04 w) s = { s with err := true, errCode := .seqErr }

/-- R245: while BUSY = 1 a write to CMD, KEY, NONCE, DIN, TAGIN or STATE is dropped with BUSY_ERR; writes to STATUS and
IRQ_EN are honoured; writes to read-only registers are ignored; reads raise nothing; and an instruction presented
then is turned away too. -/
def Obligations.BusyDropsGuardedWrites : Prop :=
  ∀ (s : State) (i : Instr) (a : BitVec 8) (r : Reg) (v : Word), s.cmd = some i → regAt s.params a = some r →
    (((r = .cmd ∨ (∃ k, r = .key k) ∨ (∃ k, r = .nonce k) ∨ (∃ k, r = .din k) ∨ (∃ k, r = .tagin k) ∨
        (∃ k, r = .stateWord k)) →
        busAccess (Cycle.write a v) s = { s with err := true, errCode := .busyErr }) ∧
      (r = .status → busAccess (Cycle.write a v) s = s.writeStatus v) ∧
      (r = .irqEn → busAccess (Cycle.write a v) s = { s with doneIe := v.getLsbD 0, errIe := v.getLsbD 1 }) ∧
      ((r = .id ∨ r = .errCode ∨ ∃ k, r = .out k) → busAccess (Cycle.write a v) s = s) ∧
      busAccess (Cycle.read a) s = s) ∧
    ∀ j : Instr, exec j s = .next { s with err := true, errCode := .busyErr }

/-! ### The register window -/

/-- R63 and R64: the address map, each register at its offset and no other register there; the STATE window exactly when
P_DEBUG = 1. -/
def Obligations.AddressMapIsExact : Prop :=
  (offsetOf .id = 0x00 ∧ offsetOf .cmd = 0x04 ∧ offsetOf .status = 0x08 ∧ offsetOf .errCode = 0x0C ∧
    offsetOf .irqEn = 0x10 ∧ (∀ k, (offsetOf (.key k)).toNat = 0x20 + 4 * k.val) ∧
    (∀ k, (offsetOf (.nonce k)).toNat = 0x40 + 4 * k.val) ∧ (∀ k, (offsetOf (.din k)).toNat = 0x50 + 4 * k.val) ∧
    (∀ k, (offsetOf (.tagin k)).toNat = 0x60 + 4 * k.val) ∧ (∀ k, (offsetOf (.out k)).toNat = 0x80 + 4 * k.val) ∧
    (∀ k, (offsetOf (.stateWord k)).toNat = 0xC0 + 4 * k.val)) ∧
  ∀ (p : Params) (a : BitVec 8) (r : Reg),
    regAt p a = some r ↔ offsetOf r = a ∧ ((∃ k, r = .stateWord k) → p.debug = true)

/-- R65, R68 and R247: a misaligned access, or one to a reserved range, or one to 0x0C0..0x0EF with P_DEBUG = 0, gives
err_o = 1, changes no register, and raises ADDR_ERR; rdata_o = 0 for a read and for an aligned write. -/
def Obligations.RefusedAccessRaisesAddrErr : Prop :=
  ∀ (s : State) (c : Cycle), c.req = true → c.rst = false →
    (c.addr.toNat % 4 ≠ 0 ∨ (0x14 ≤ c.addr.toNat ∧ c.addr.toNat ≤ 0x1F) ∨
      (0x70 ≤ c.addr.toNat ∧ c.addr.toNat ≤ 0x7F) ∨ (0xA0 ≤ c.addr.toNat ∧ c.addr.toNat ≤ 0xBF) ∨
      0xF0 ≤ c.addr.toNat ∨ (s.params.debug = false ∧ 0xC0 ≤ c.addr.toNat ∧ c.addr.toNat ≤ 0xEF)) →
    (portOut c s).err = true ∧
      (c.we = false ∨ c.addr.toNat % 4 = 0 → (portOut c s).rdata = some 0) ∧
      busAccess c s = { s with err := true, errCode := .addrErr }

/-- R66 and R282: what a read of each register returns, with no side effect; OUT and STATE read 0 while BUSY = 1; the
write-only registers read 0. The numbers of PHASE and MODE are R33's, those of CODE are R241's. -/
def Obligations.ReadsReturnTheRegister : Prop :=
  ∀ (s : State) (a : BitVec 8) (r : Reg), regAt s.params a = some r →
    portOut (Cycle.read a) s = { rdata := some (busRead r s), err := false } ∧ busAccess (Cycle.read a) s = s ∧
    (r = .id → busRead r s = 0x43484D31) ∧
    ((r = .cmd ∨ (∃ k, r = .key k) ∨ (∃ k, r = .nonce k) ∨ (∃ k, r = .din k) ∨ ∃ k, r = .tagin k) →
      busRead r s = 0) ∧
    (∀ k, r = .out k → (s.cmd = none → busRead r s = s.out.get k) ∧ (s.cmd ≠ none → busRead r s = 0)) ∧
    (∀ k, r = .stateWord k → (s.cmd = none → busRead r s = s.sponge.get k) ∧ (s.cmd ≠ none → busRead r s = 0)) ∧
    (r = .status → busRead r s =
      (if s.cmd.isSome then 0x1 else 0) ||| (if s.done then 0x2 else 0) ||| (if s.err then 0x4 else 0) |||
        (if s.tagOk then 0x8 else 0) |||
        (match s.phase with | .idle => 0x00 | .ready => 0x10 | .absorb => 0x20 | .finalized => 0x30) |||
        (match s.mode with | .none => 0x000 | .enc => 0x100 | .dec => 0x200 | .hash => 0x300) |||
        (if s.params.debug then 0x400 else 0)) ∧
    (r = .errCode → busRead r s =
      match s.errCode with
      | .none => 0 | .illegalCmd => 1 | .seqErr => 2 | .busyErr => 3 | .tagFail => 4 | .addrErr => 5) ∧
    (r = .irqEn → busRead r s = (if s.errIe then 0x2 else 0) ||| (if s.doneIe then 0x1 else 0))

/-- R25 and R31: the fields of STATUS bit by bit, PHASE and MODE with the numbers of R33; every reserved bit reads 0; a
write of the reserved bits, and of the read-only fields, is ignored. -/
def Obligations.StatusFieldsAndReservedBits : Prop :=
  ∀ s : State,
    s.statusWord.getLsbD 0 = s.cmd.isSome ∧ s.statusWord.getLsbD 1 = s.done ∧ s.statusWord.getLsbD 2 = s.err ∧
    s.statusWord.getLsbD 3 = s.tagOk ∧
    s.statusWord.extractLsb' 4 3 =
      (match s.phase with | .idle => 0 | .ready => 1 | .absorb => 2 | .finalized => 3) ∧
    (s.statusWord.extractLsb' 4 3).toNat ≤ 3 ∧
    s.statusWord.extractLsb' 8 2 = (match s.mode with | .none => 0 | .enc => 1 | .dec => 2 | .hash => 3) ∧
    s.statusWord.getLsbD 10 = s.params.debug ∧ s.statusWord.getLsbD 7 = false ∧
    (∀ b, 11 ≤ b → s.statusWord.getLsbD b = false) ∧
    ∀ v : Word, busAccess (Cycle.write 0x08 v) s = busAccess (Cycle.write 0x08 (v &&& 0x6)) s

/-- R35: IRQ_EN keeps bits 1:0 of what is written, reads back 0 above them, is honoured while BUSY = 1, and nothing else
changes. -/
def Obligations.IrqEnKeepsTwoBits : Prop :=
  ∀ (s : State) (v : Word),
    (busAccess (Cycle.write 0x10 v) s).irqEnWord = v &&& 0x3 ∧
      busAccess (Cycle.write 0x10 v) s = { s with doneIe := v.getLsbD 0, errIe := v.getLsbD 1 }

/-- R67 for the input registers and the debug window with BUSY = 0: the written word takes the value, every other word
of the group and every other register is unchanged. -/
def Obligations.InputWritesSetOneWord : Prop :=
  ∀ (s : State) (v : Word), s.cmd = none →
    (∀ k : Fin 8, ∃ o : Oct, busAccess (Cycle.write (offsetOf (.key k)) v) s = { s with key := o } ∧
      o.get k = v ∧ ∀ j, j ≠ k → o.get j = s.key.get j) ∧
    (∀ k : Fin 4, ∃ q : Quad, busAccess (Cycle.write (offsetOf (.nonce k)) v) s = { s with nonce := q } ∧
      q.get k = v ∧ ∀ j, j ≠ k → q.get j = s.nonce.get j) ∧
    (∀ k : Fin 4, ∃ q : Quad, busAccess (Cycle.write (offsetOf (.din k)) v) s = { s with din := q } ∧
      q.get k = v ∧ ∀ j, j ≠ k → q.get j = s.din.get j) ∧
    (∀ k : Fin 4, ∃ q : Quad, busAccess (Cycle.write (offsetOf (.tagin k)) v) s = { s with tagin := q } ∧
      q.get k = v ∧ ∀ j, j ≠ k → q.get j = s.tagin.get j) ∧
    (s.params.debug = true → ∀ k : Fin 12, ∃ S : Sponge,
      busAccess (Cycle.write (offsetOf (.stateWord k)) v) s = { s with sponge := S } ∧
      S.get k = v ∧ ∀ j, j ≠ k → S.get j = s.sponge.get j)

/-- R32: a write of STATUS clears DONE by bit 1 and ERR with ERR_CODE by bit 2, and does nothing else; in the cycle in
which a command completes the set of DONE wins, and in the cycle in which a DEC_FINAL fails the set of ERR and its
code win. -/
def Obligations.StatusWriteClearsAndSetWins : Prop :=
  (∀ (s : State) (v : Word),
    busAccess (Cycle.write 0x08 v) s =
      { s with
        done := s.done && !v.getLsbD 1, err := s.err && !v.getLsbD 2
        errCode := if v.getLsbD 2 then .none else s.errCode }) ∧
  (∀ (s t : State) (i : Instr) (v : Word), s.cmd = some i → i.wellFormed s.params = true →
    legalCommand i s.phase s.mode = true → latency s.params i ≤ s.seqStep + 1 →
    clockEdge (Cycle.write 0x08 v) s = .next t → t.done = true ∧ t.cmd = none) ∧
  ∀ (s t : State) (len : BitVec 4) (v : Word), s.cmd = some (.decFinal len) →
    legalCommand (.decFinal len) s.phase s.mode = true → latency s.params (.decFinal len) ≤ s.seqStep + 1 →
    s.tagin ≠ (permute (finalInput 0x05000000 s.din.byte len s.sponge)).p0 →
    clockEdge (Cycle.write 0x08 v) s = .next t → t.err = true ∧ t.errCode = .tagFail

/-- R42 and R252: irq_o is 1 exactly while a source is both pending and enabled, so clearing the STATUS bits or the
enables makes it 0; after reset it is 0. -/
def Obligations.IrqIsLevelOfEnabledSources : Prop :=
  ∀ s : State,
    (s.irq = true ↔ (s.done = true ∧ s.doneIe = true) ∨ (s.err = true ∧ s.errIe = true)) ∧
    (busAccess (Cycle.write 0x08 0x6) s).irq = false ∧ (busAccess (Cycle.write 0x10 0x0) s).irq = false ∧
    (State.resetWith s.params).irq = false

/-! ### One step, and the BUSY window -/

/-- A step is one clock cycle with the next cycle the host has listed, idle where it has listed none. With no command in
progress and no reset it makes the access presented and nothing else (R62, R66, R67). Where the access is a CMD write, it
either latches the decoded command, with BUSY set and DONE, TAG_OK and OUT cleared, or changes nothing but ERR and
ERR_CODE, by the first check that fails (R154). The list of cycles, what is idle, and the 0 of the sequencer step and
round counter at acceptance are the model's (log entries 2, 6 and 22). -/
def Obligations.StepPresentsCommandWord : Prop :=
  (∀ s : State, s.host = [] → step s = clockEdge Cycle.idle s) ∧
  (∀ (s : State) (c : Cycle) (cs : List Cycle), s.host = c :: cs → step s = clockEdge c { s with host := cs }) ∧
  (∀ s : State, s.cmd = none → s.host = [] → step s = .next { s with port := ⟨some 0, false⟩ }) ∧
  (∀ (s : State) (c : Cycle) (cs : List Cycle), s.cmd = none → s.host = c :: cs → c.rst = false →
    step s = .next { busAccess c { s with host := cs } with port := portOut c { s with host := cs } }) ∧
  ∀ (s : State) (w : Word) (cs : List Cycle), s.cmd = none → s.host = Cycle.write 0x04 w :: cs →
    (∀ i, decode s.params w = some i → legalCommand i s.phase s.mode = true →
      step s = .next
        { s with
          cmd := some i, seqStep := 0, round := 0, scratch := Scratch.zero
          done := false, tagOk := false, out := ⟨⟨0, 0, 0, 0⟩, ⟨0, 0, 0, 0⟩⟩, host := cs, port := ⟨none, false⟩ }) ∧
    (decode s.params w = none →
      step s = .next { s with err := true, errCode := .illegalCmd, host := cs, port := ⟨none, false⟩ }) ∧
    ∀ i, decode s.params w = some i → legalCommand i s.phase s.mode = false →
      step s = .next { s with err := true, errCode := .seqErr, host := cs, port := ⟨none, false⟩ }

/-- What a step does with a command in progress and no reset. Before the last cycle of its window it makes the access
presented and advances the hidden state, and nothing else. At the last cycle (latency reached) it is `exec` of the
command on the state with the latch released and the cycle's access, which can be a write of STATUS or IRQ_EN at most,
taken; the access's own error event comes last (R156, R250). With nothing presented it is `exec` alone. What the hidden
state holds is the model's choice (log entries 6, 7, 22 and 23). -/
def Obligations.StepRunsLatchedInstruction : Prop :=
  (∀ (s : State) (i : Instr), s.cmd = some i → s.seqStep + 1 < latency s.params i →
    (s.host = [] →
      step s = .next
        { s with
          seqStep := s.seqStep + 1, round := roundAt s.params i (s.seqStep + 1)
          scratch := scratchAt s.params i (s.seqStep + 1) s.din s.sponge, port := ⟨some 0, false⟩ }) ∧
    ∀ (c : Cycle) (cs : List Cycle), s.host = c :: cs → c.rst = false →
      step s = .next
        { busAccess c { s with host := cs } with
          seqStep := s.seqStep + 1, round := roundAt s.params i (s.seqStep + 1)
          scratch := scratchAt s.params i (s.seqStep + 1) s.din s.sponge
          port := portOut c { s with host := cs } }) ∧
  ∀ (s : State) (i : Instr), s.cmd = some i → latency s.params i ≤ s.seqStep + 1 →
    (s.host = [] →
      step s = exec i
        { s with
          cmd := none, seqStep := 0, round := 0, scratch := Scratch.zero
          port := ⟨some 0, false⟩ }) ∧
    ∀ (c : Cycle) (cs : List Cycle), s.host = c :: cs → c.rst = false →
      step s = mapNext (State.raiseIf (accessError c { s with host := cs }))
        (exec i
          { accessEffect c { s with host := cs } with
            cmd := none, seqStep := 0, round := 0, scratch := Scratch.zero
            port := portOut c { s with host := cs } })

/-- A step runs the placed word: where the word placed by `withFetchWord` decodes to a command that R154 accepts, the
very next step is `exec` of that command on the state with no command in progress. The placing is the model's (log
entry 5). -/
def Obligations.StepRunsPlacedWord : Prop :=
  ∀ (s : State) (nbits w : Nat) (i : Instr), decode s.params (tableWord nbits w) = some i →
    legalCommand i s.phase s.mode = true →
    step (s.withFetchWord nbits w) = exec i
      { s with
        cmd := none, seqStep := 0, round := 0, scratch := Scratch.zero
        port := ⟨some 0, false⟩ }

/-- R286: the latency of every command. -/
def Obligations.LatencyTable : Prop :=
  ∀ (p : Params) (na : Bool) (len : BitVec 4),
    latency p (.init na) = 1 + p.permCycles ∧ latency p .encBlock = 1 + p.permCycles ∧
    latency p .decBlock = 1 + p.permCycles ∧ latency p .hashBlock = 1 + p.permCycles ∧
    latency p (.encFinal len) = 1 + 2 * p.permCycles ∧ latency p (.decFinal len) = 1 + 2 * p.permCycles ∧
    latency p (.hashFinal len) = 1 + 3 * p.permCycles ∧ latency p .zeroize = 1 ∧ latency p .permute = p.permCycles

/-- R280: BUSY reads 1 in exactly the L cycles after the one that presents an accepted command, and DONE, TAG_OK and OUT
are 0 throughout them, whatever the host does on the bus short of a reset. -/
def Obligations.BusyWindowLastsTheLatency : Prop :=
  ∀ (s : State) (i : Instr) (w : Word) (cs : List Cycle), s.params.wf = true → s.cmd = none →
    decode s.params w = some i → legalCommand i s.phase s.mode = true →
    s.host = Cycle.write 0x04 w :: cs → (∀ c ∈ cs, c.rst = false) →
    (∀ (k : Nat) (t : State), 1 ≤ k → k ≤ latency s.params i → runFor k s = .next t →
      t.busy = true ∧ t.done = false ∧ t.tagOk = false ∧ t.out = Oct.zero) ∧
    ∀ t : State, runFor (1 + latency s.params i) s = .next t → t.busy = false ∧ t.done = true

/-- R288 and R72: with any accesses at all during the BUSY window, resets apart, the command leaves S, the registers and
the phase machine exactly as `exec` of it leaves them on the state that presented it: the window's accesses can
neither change the command's inputs nor see or change its results. -/
def Obligations.WindowIsAtomic : Prop :=
  ∀ (s t : State) (i : Instr) (w : Word) (cs : List Cycle), s.params.wf = true → s.cmd = none →
    decode s.params w = some i → legalCommand i s.phase s.mode = true →
    s.host = Cycle.write 0x04 w :: cs → (∀ c ∈ cs, c.rst = false) → exec i s = .next t →
    ∃ u, runFor (1 + latency s.params i) s = .next u ∧ u.outcome = t.outcome

/-- R250: in the cycle in which a command completes, a CMD write is dropped with BUSY_ERR; a failing DEC_FINAL completes
and raises TAG_FAIL, but ERR_CODE takes the code of an access that raises an error in the same cycle, and TAG_FAIL is
then visible only as TAG_OK = 0 with DONE = 1 in DEC mode; and a W1C clear in that cycle loses to the set. -/
def Obligations.CompletionCycleOrder : Prop :=
  (∀ (s t : State) (i : Instr) (w : Word), s.cmd = some i → i.wellFormed s.params = true →
    legalCommand i s.phase s.mode = true → latency s.params i ≤ s.seqStep + 1 →
    clockEdge (Cycle.write 0x04 w) s = .next t →
    t.cmd = none ∧ t.done = true ∧ t.err = true ∧ t.errCode = .busyErr) ∧
  ∀ (s t : State) (len : BitVec 4) (c : Cycle), s.cmd = some (.decFinal len) →
    legalCommand (.decFinal len) s.phase s.mode = true → latency s.params (.decFinal len) ≤ s.seqStep + 1 →
    s.tagin ≠ (permute (finalInput 0x05000000 s.din.byte len s.sponge)).p0 → c.rst = false →
    clockEdge c s = .next t →
    t.cmd = none ∧ t.done = true ∧ t.phase = .finalized ∧ t.mode = .dec ∧ t.out = Oct.zero ∧ t.tagOk = false ∧
      t.err = true ∧ t.errCode = (accessError c s).getD .tagFail

/-- R240: no error stops the block. Every step answers a next state. -/
def Obligations.StepNeverStops : Prop := ∀ s : State, ∃ t, step s = .next t

/-! ### Reset -/

/-- R270 and R275: a cycle with rst_i = 1 puts every register at its reset value, drops a command in progress, and
raises no error event, whatever is presented. -/
def Obligations.ResetClearsEverything : Prop :=
  ∀ (s : State) (c : Cycle), c.rst = true →
    ∃ t, clockEdge c s = .next t ∧ t.sponge = ⟨⟨0, 0, 0, 0⟩, ⟨0, 0, 0, 0⟩, ⟨0, 0, 0, 0⟩⟩ ∧
      t.key = ⟨⟨0, 0, 0, 0⟩, ⟨0, 0, 0, 0⟩⟩ ∧ t.nonce = ⟨0, 0, 0, 0⟩ ∧ t.din = ⟨0, 0, 0, 0⟩ ∧
      t.tagin = ⟨0, 0, 0, 0⟩ ∧ t.out = ⟨⟨0, 0, 0, 0⟩, ⟨0, 0, 0, 0⟩⟩ ∧ t.busy = false ∧ t.done = false ∧
      t.err = false ∧ t.tagOk = false ∧ t.phase = .idle ∧ t.mode = .none ∧ t.errCode = .none ∧ t.doneIe = false ∧
      t.errIe = false ∧ t.seqStep = 0 ∧ t.round = 0 ∧
      t.scratch = ⟨⟨0, 0, 0, 0⟩, ⟨0, 0, 0, 0⟩, ⟨0, 0, 0, 0⟩, ⟨0, 0, 0, 0⟩⟩ ∧ t.params = s.params ∧ t.port.err = false ∧
      (c.req = true → c.we = false → t.port.rdata = some 0)

/-- R271: after reset, in every implementation, irq_o = 0, STATUS reads P_DEBUG << 10, ID reads "CHM1", INIT, ZEROIZE and
(with P_DEBUG = 1) PERMUTE are the only commands accepted, and the block and final commands raise SEQ_ERR. -/
def Obligations.AfterResetOnlySessionStarts : Prop :=
  ∀ p : Params,
    (State.resetWith p).phase = .idle ∧ (State.resetWith p).irq = false ∧
    busRead .status (State.resetWith p) = (if p.debug then 0x00000400 else 0) ∧
    busRead .id (State.resetWith p) = 0x43484D31 ∧
    ∀ (w : Word) (i : Instr), decode p w = some i →
      (((∃ na, i = .init na) ∨ i = .zeroize ∨ i = .permute) ∧
          (busAccess (Cycle.write 0x04 w) (State.resetWith p)).cmd = some i) ∨
        ((∃ m, sessionMode i = some m) ∧
          busAccess (Cycle.write 0x04 w) (State.resetWith p) =
            { State.resetWith p with err := true, errCode := .seqErr })

/-- The invariant of the machine holds after reset in every implementation the spec allows. -/
def Obligations.InvariantHoldsAtReset : Prop :=
  ∀ p : Params, p.wf = true → (State.resetWith p).Inv

/-! ### Rules about the whole machine -/

/-- Every step keeps the invariant, from every state that meets it: MODE fits PHASE (R33), ERR fits ERR_CODE (R28,
R34), TAG_OK fits the phase machine (R29), nothing is left of a session in IDLE without the debug window (R20), and the
scratch is 0 when no command is in progress (R44). That the sequencer step and the round counter are 0 too then, and what
the hidden fields hold inside the window (R43), is the model's own choice (log entries 6, 7, 22 and 23). -/
def Obligations.StepKeepsInvariant : Prop :=
  ∀ s t : State, s.Inv → step s = .next t → t.Inv

/-- S is written only by commands, by a host write to the debug window with P_DEBUG = 1 and BUSY = 0, and by reset (R20,
R41); by a command only at its completion edge, the last cycle of its window (R156). That the field holds S unchanged
until that edge is the model's reading of R156 (log entry 3, DEDUCED). -/
def Obligations.SpongeHasThreeWriters : Prop :=
  ∀ s t : State, step s = .next t → t.sponge ≠ s.sponge →
    s.nextCycle.rst = true ∨ (∃ i, s.cmd = some i ∧ latency s.params i ≤ s.seqStep + 1) ∨
      (s.cmd = none ∧ s.params.debug = true ∧ ∃ k, s.nextCycle.writesReg s.params (.stateWord k))

/-- R36 and R37: KEY and NONCE change only by a host write with BUSY = 0, by the completion of ZEROIZE, and by reset. -/
def Obligations.KeyAndNonceAreKept : Prop :=
  ∀ s t : State, step s = .next t →
    (t.key ≠ s.key → s.nextCycle.rst = true ∨ s.cmd = some .zeroize ∨
      (s.cmd = none ∧ ∃ k, s.nextCycle.writesReg s.params (.key k))) ∧
    (t.nonce ≠ s.nonce → s.nextCycle.rst = true ∨ s.cmd = some .zeroize ∨
      (s.cmd = none ∧ ∃ k, s.nextCycle.writesReg s.params (.nonce k)))

/-- KEY and NONCE are read by INIT alone, and NONCE only with NA = 0: a step with no INIT in progress does the same
whatever they hold, KEY and NONCE themselves apart, and one with INIT with NA = 1 in progress whatever NONCE holds. For
NONCE that is R37 and R94; for KEY it follows from the commands' own rules, of which only R160 reads it. -/
def Obligations.OnlyInitReadsKeyAndNonce : Prop :=
  (∀ (s t : State) (k : Oct) (n : Quad), (∀ na, s.cmd ≠ some (.init na)) → step s = .next t →
    ∃ u, step { s with key := k, nonce := n } = .next u ∧ { u with key := t.key, nonce := t.nonce } = t) ∧
  ∀ (s t : State) (n : Quad), s.cmd = some (.init true) → step s = .next t →
    ∃ u, step { s with nonce := n } = .next u ∧ { u with nonce := t.nonce } = t

/-- R27 and R28: DONE goes from 1 to 0 only by an acceptance, a W1C write or reset; ERR goes from 1 to 0 only by a W1C
write or reset. -/
def Obligations.DoneAndErrAreSticky : Prop :=
  ∀ s t : State, step s = .next t →
    (s.done = true → t.done = false →
      s.nextCycle.rst = true ∨ s.nextCycle.clearsStatusBit 1 ∨ (s.cmd = none ∧ ∃ i, t.cmd = some i)) ∧
    (s.err = true → t.err = false → s.nextCycle.rst = true ∨ s.nextCycle.clearsStatusBit 2)

/-- R155: PHASE and MODE change only by reset, to IDLE and NONE, or by the completion of a command that was legal, to
the values of its row of the table. -/
def Obligations.PhaseFollowsTheTable : Prop :=
  ∀ s t : State, step s = .next t → (t.phase, t.mode) ≠ (s.phase, s.mode) →
    (s.nextCycle.rst = true ∧ t.phase = .idle ∧ t.mode = .none) ∨
    ∃ i, s.cmd = some i ∧ t.cmd = none ∧ legalCommand i s.phase s.mode = true ∧
      (t.phase, t.mode) = phaseAfter i s.phase s.mode

/-- R30: STATUS.DBG reads as P_DEBUG, and no step changes it or another parameter. -/
def Obligations.ParametersNeverChange : Prop :=
  ∀ s t : State, step s = .next t →
    t.params = s.params ∧ s.statusWord.getLsbD 10 = s.params.debug ∧ t.statusWord.getLsbD 10 = s.params.debug

/-- What an instruction leaves alone wherever it answers a next state: the parameters, IRQ_EN, the port and the pending
inputs always; KEY and NONCE unless it is ZEROIZE; TAGIN unless it is ZEROIZE or DEC_FINAL; ERR and ERR_CODE unless it
is turned away or is DEC_FINAL; and everything but ERR and ERR_CODE where it is turned away (R154, R163, R201). -/
def Obligations.ExecLeavesTheRestAlone : Prop :=
  ∀ (i : Instr) (s t : State), exec i s = .next t →
    t.params = s.params ∧ t.doneIe = s.doneIe ∧ t.errIe = s.errIe ∧ t.port = s.port ∧ t.host = s.host ∧
    (i ≠ .zeroize → t.key = s.key ∧ t.nonce = s.nonce) ∧
    (i ≠ .zeroize → (∀ len, i ≠ .decFinal len) → t.tagin = s.tagin) ∧
    (s.checkInstr i = none → (∀ len, i ≠ .decFinal len) → t.err = s.err ∧ t.errCode = s.errCode) ∧
    (s.checkInstr i ≠ none → { t with err := s.err, errCode := s.errCode } = s)

/-- R287: how long BUSY lasts, cycle by cycle, does not depend on S, KEY, NONCE, DIN, TAGIN or OUT: two machines that
agree on the phase machine, the command in progress and the accesses to come agree on them, and on BUSY, after any
number of cycles. -/
def Obligations.TimingIgnoresData : Prop :=
  ∀ (n : Nat) (s t s' t' : State), sameControl s t → runFor n s = .next s' → runFor n t = .next t' →
    sameControl s' t' ∧ s'.busy = t'.busy

/-- R22 and R256: nothing the block drives onto the bus or onto irq_o in a cycle depends on KEY, NONCE, DIN, TAGIN or the
scratch, nor, with P_DEBUG = 0, on S. -/
def Obligations.OutputsHideSensitiveRegisters : Prop :=
  ∀ (s t : State) (c : Cycle), sameVisible s t → portOut c s = portOut c t ∧ s.irq = t.irq

/-! ### Whole messages -/

/-- R182: for the same S and the same plaintext block, ENC_BLOCK, HASH_BLOCK and the DEC_BLOCK of the matching
ciphertext leave the same S, the permutation of S with `Rate(S) XOR plaintext` in its rate, wherever each is accepted. -/
def Obligations.FullBlocksChangeSAlike : Prop :=
  ∀ (s t u : State) (m : Quad), s.cmd = none → t.cmd = none → u.cmd = none →
    legalCommand .encBlock s.phase s.mode = true → legalCommand .hashBlock t.phase t.mode = true →
    legalCommand .decBlock u.phase u.mode = true → t.sponge = s.sponge → u.sponge = s.sponge →
    ∃ s1 t1 u1, exec .encBlock { s with din := m } = .next s1 ∧ exec .hashBlock { t with din := m } = .next t1 ∧
      exec .decBlock { u with din := s1.out.lo } = .next u1 ∧
      s1.sponge = permute { s.sponge with p0 := s.sponge.p0.xor m } ∧ t1.sponge = s1.sponge ∧
      u1.sponge = s1.sponge ∧ u1.out.lo = m

/-- R202: for every key, every nonce or absent nonce, and every message, decrypting what encrypting gave, with the tag
it gave, under the same INIT restores the message, ends with TAG_OK = 1, and leaves the same S. -/
def Obligations.DecryptInvertsEncrypt : Prop :=
  ∀ (s t : State) (na : Bool) (blocks : List Quad) (last : Quad) (len : BitVec 4),
    s.cmd = none → t.cmd = none → s.key = t.key → s.nonce = t.nonce →
    ∃ s1 t1 sent plain t2, exec (.init na) s = .next s1 ∧ exec (.init na) t = .next t1 ∧
      encryptMessage blocks last len s1 = some sent ∧
      decryptMessage sent.blocks sent.last len sent.tag t1 = some (plain, t2) ∧
      plain = blocks ∧ (∀ j : Fin 16, j.val < len.toNat → t2.out.lo.byte j = last.byte j) ∧ t2.tagOk = true ∧
      t2.sponge = sent.final.sponge

/-- R203: with a tag that differs in at least one bit from the one encrypting gave, the same decryption ends with
OUT0..7 = 0, TAG_OK = 0, ERR = 1 and TAG_FAIL. -/
def Obligations.AlteredTagIsRejected : Prop :=
  ∀ (s t : State) (na : Bool) (blocks : List Quad) (last tag : Quad) (len : BitVec 4) (s1 t1 : State) (sent : Sealed),
    s.cmd = none → t.cmd = none → s.key = t.key → s.nonce = t.nonce → exec (.init na) s = .next s1 →
    exec (.init na) t = .next t1 → encryptMessage blocks last len s1 = some sent → tag ≠ sent.tag →
    ∃ plain t2, decryptMessage sent.blocks sent.last len tag t1 = some (plain, t2) ∧ t2.out = Oct.zero ∧
      t2.tagOk = false ∧ t2.done = true ∧ t2.err = true ∧ t2.errCode = .tagFail

/-- R222 and R164: two sessions with the same KEY, NONCE, NA and message give the same digest, whatever ran on the block
before. -/
def Obligations.HashIsDeterministic : Prop :=
  ∀ (s t : State) (na : Bool) (blocks : List Quad) (last : Quad) (len : BitVec 4),
    s.cmd = none → t.cmd = none → s.key = t.key → s.nonce = t.nonce →
    ∃ s1 t1 digest s2 t2, exec (.init na) s = .next s1 ∧ exec (.init na) t = .next t1 ∧
      hashMessage blocks last len s1 = some (digest, s2) ∧ hashMessage blocks last len t1 = some (digest, t2) ∧
      s2.sponge = t2.sponge
end

