-- ==== Sys2Proof/Laws/State.lean ====
section
/-! SUPPORT. One lemma for each field under each shared update of the state, true by `rfl` (by cases where the update
is conditional), so that no later proof unfolds a record update. -/

namespace Sys2Proof.Machine.State

/-! ### raise -/

@[simp] theorem raise_params (e : ErrCode) (s : State) : (s.raise e).params = s.params := rfl
@[simp] theorem raise_sponge (e : ErrCode) (s : State) : (s.raise e).sponge = s.sponge := rfl
@[simp] theorem raise_key (e : ErrCode) (s : State) : (s.raise e).key = s.key := rfl
@[simp] theorem raise_nonce (e : ErrCode) (s : State) : (s.raise e).nonce = s.nonce := rfl
@[simp] theorem raise_din (e : ErrCode) (s : State) : (s.raise e).din = s.din := rfl
@[simp] theorem raise_tagin (e : ErrCode) (s : State) : (s.raise e).tagin = s.tagin := rfl
@[simp] theorem raise_out (e : ErrCode) (s : State) : (s.raise e).out = s.out := rfl
@[simp] theorem raise_done (e : ErrCode) (s : State) : (s.raise e).done = s.done := rfl
@[simp] theorem raise_err (e : ErrCode) (s : State) : (s.raise e).err = true := rfl
@[simp] theorem raise_tagOk (e : ErrCode) (s : State) : (s.raise e).tagOk = s.tagOk := rfl
@[simp] theorem raise_phase (e : ErrCode) (s : State) : (s.raise e).phase = s.phase := rfl
@[simp] theorem raise_mode (e : ErrCode) (s : State) : (s.raise e).mode = s.mode := rfl
@[simp] theorem raise_errCode (e : ErrCode) (s : State) : (s.raise e).errCode = e := rfl
@[simp] theorem raise_doneIe (e : ErrCode) (s : State) : (s.raise e).doneIe = s.doneIe := rfl
@[simp] theorem raise_errIe (e : ErrCode) (s : State) : (s.raise e).errIe = s.errIe := rfl
@[simp] theorem raise_cmd (e : ErrCode) (s : State) : (s.raise e).cmd = s.cmd := rfl
@[simp] theorem raise_seqStep (e : ErrCode) (s : State) : (s.raise e).seqStep = s.seqStep := rfl
@[simp] theorem raise_round (e : ErrCode) (s : State) : (s.raise e).round = s.round := rfl
@[simp] theorem raise_scratch (e : ErrCode) (s : State) : (s.raise e).scratch = s.scratch := rfl
@[simp] theorem raise_port (e : ErrCode) (s : State) : (s.raise e).port = s.port := rfl
@[simp] theorem raise_host (e : ErrCode) (s : State) : (s.raise e).host = s.host := rfl

/-! ### clearErr -/

@[simp] theorem clearErr_params (s : State) : (s.clearErr).params = s.params := rfl
@[simp] theorem clearErr_sponge (s : State) : (s.clearErr).sponge = s.sponge := rfl
@[simp] theorem clearErr_key (s : State) : (s.clearErr).key = s.key := rfl
@[simp] theorem clearErr_nonce (s : State) : (s.clearErr).nonce = s.nonce := rfl
@[simp] theorem clearErr_din (s : State) : (s.clearErr).din = s.din := rfl
@[simp] theorem clearErr_tagin (s : State) : (s.clearErr).tagin = s.tagin := rfl
@[simp] theorem clearErr_out (s : State) : (s.clearErr).out = s.out := rfl
@[simp] theorem clearErr_done (s : State) : (s.clearErr).done = s.done := rfl
@[simp] theorem clearErr_err (s : State) : (s.clearErr).err = false := rfl
@[simp] theorem clearErr_tagOk (s : State) : (s.clearErr).tagOk = s.tagOk := rfl
@[simp] theorem clearErr_phase (s : State) : (s.clearErr).phase = s.phase := rfl
@[simp] theorem clearErr_mode (s : State) : (s.clearErr).mode = s.mode := rfl
@[simp] theorem clearErr_errCode (s : State) : (s.clearErr).errCode = .none := rfl
@[simp] theorem clearErr_doneIe (s : State) : (s.clearErr).doneIe = s.doneIe := rfl
@[simp] theorem clearErr_errIe (s : State) : (s.clearErr).errIe = s.errIe := rfl
@[simp] theorem clearErr_cmd (s : State) : (s.clearErr).cmd = s.cmd := rfl
@[simp] theorem clearErr_seqStep (s : State) : (s.clearErr).seqStep = s.seqStep := rfl
@[simp] theorem clearErr_round (s : State) : (s.clearErr).round = s.round := rfl
@[simp] theorem clearErr_scratch (s : State) : (s.clearErr).scratch = s.scratch := rfl
@[simp] theorem clearErr_port (s : State) : (s.clearErr).port = s.port := rfl
@[simp] theorem clearErr_host (s : State) : (s.clearErr).host = s.host := rfl

/-! ### release -/

@[simp] theorem release_params (s : State) : (s.release).params = s.params := rfl
@[simp] theorem release_sponge (s : State) : (s.release).sponge = s.sponge := rfl
@[simp] theorem release_key (s : State) : (s.release).key = s.key := rfl
@[simp] theorem release_nonce (s : State) : (s.release).nonce = s.nonce := rfl
@[simp] theorem release_din (s : State) : (s.release).din = s.din := rfl
@[simp] theorem release_tagin (s : State) : (s.release).tagin = s.tagin := rfl
@[simp] theorem release_out (s : State) : (s.release).out = s.out := rfl
@[simp] theorem release_done (s : State) : (s.release).done = s.done := rfl
@[simp] theorem release_err (s : State) : (s.release).err = s.err := rfl
@[simp] theorem release_tagOk (s : State) : (s.release).tagOk = s.tagOk := rfl
@[simp] theorem release_phase (s : State) : (s.release).phase = s.phase := rfl
@[simp] theorem release_mode (s : State) : (s.release).mode = s.mode := rfl
@[simp] theorem release_errCode (s : State) : (s.release).errCode = s.errCode := rfl
@[simp] theorem release_doneIe (s : State) : (s.release).doneIe = s.doneIe := rfl
@[simp] theorem release_errIe (s : State) : (s.release).errIe = s.errIe := rfl
@[simp] theorem release_cmd (s : State) : (s.release).cmd = none := rfl
@[simp] theorem release_seqStep (s : State) : (s.release).seqStep = 0 := rfl
@[simp] theorem release_round (s : State) : (s.release).round = 0 := rfl
@[simp] theorem release_scratch (s : State) : (s.release).scratch = Scratch.zero := rfl
@[simp] theorem release_port (s : State) : (s.release).port = s.port := rfl
@[simp] theorem release_host (s : State) : (s.release).host = s.host := rfl

/-! ### accept -/

@[simp] theorem accept_params (i : Instr) (s : State) : (s.accept i).params = s.params := rfl
@[simp] theorem accept_sponge (i : Instr) (s : State) : (s.accept i).sponge = s.sponge := rfl
@[simp] theorem accept_key (i : Instr) (s : State) : (s.accept i).key = s.key := rfl
@[simp] theorem accept_nonce (i : Instr) (s : State) : (s.accept i).nonce = s.nonce := rfl
@[simp] theorem accept_din (i : Instr) (s : State) : (s.accept i).din = s.din := rfl
@[simp] theorem accept_tagin (i : Instr) (s : State) : (s.accept i).tagin = s.tagin := rfl
@[simp] theorem accept_out (i : Instr) (s : State) : (s.accept i).out = Oct.zero := rfl
@[simp] theorem accept_done (i : Instr) (s : State) : (s.accept i).done = false := rfl
@[simp] theorem accept_err (i : Instr) (s : State) : (s.accept i).err = s.err := rfl
@[simp] theorem accept_tagOk (i : Instr) (s : State) : (s.accept i).tagOk = false := rfl
@[simp] theorem accept_phase (i : Instr) (s : State) : (s.accept i).phase = s.phase := rfl
@[simp] theorem accept_mode (i : Instr) (s : State) : (s.accept i).mode = s.mode := rfl
@[simp] theorem accept_errCode (i : Instr) (s : State) : (s.accept i).errCode = s.errCode := rfl
@[simp] theorem accept_doneIe (i : Instr) (s : State) : (s.accept i).doneIe = s.doneIe := rfl
@[simp] theorem accept_errIe (i : Instr) (s : State) : (s.accept i).errIe = s.errIe := rfl
@[simp] theorem accept_cmd (i : Instr) (s : State) : (s.accept i).cmd = some i := rfl
@[simp] theorem accept_seqStep (i : Instr) (s : State) : (s.accept i).seqStep = 0 := rfl
@[simp] theorem accept_round (i : Instr) (s : State) : (s.accept i).round = 0 := rfl
@[simp] theorem accept_scratch (i : Instr) (s : State) : (s.accept i).scratch = Scratch.zero := rfl
@[simp] theorem accept_port (i : Instr) (s : State) : (s.accept i).port = s.port := rfl
@[simp] theorem accept_host (i : Instr) (s : State) : (s.accept i).host = s.host := rfl

/-! ### complete -/

@[simp] theorem complete_params (s : State) : (s.complete).params = s.params := rfl
@[simp] theorem complete_sponge (s : State) : (s.complete).sponge = s.sponge := rfl
@[simp] theorem complete_key (s : State) : (s.complete).key = s.key := rfl
@[simp] theorem complete_nonce (s : State) : (s.complete).nonce = s.nonce := rfl
@[simp] theorem complete_din (s : State) : (s.complete).din = s.din := rfl
@[simp] theorem complete_tagin (s : State) : (s.complete).tagin = s.tagin := rfl
@[simp] theorem complete_out (s : State) : (s.complete).out = s.out := rfl
@[simp] theorem complete_done (s : State) : (s.complete).done = true := rfl
@[simp] theorem complete_err (s : State) : (s.complete).err = s.err := rfl
@[simp] theorem complete_tagOk (s : State) : (s.complete).tagOk = s.tagOk := rfl
@[simp] theorem complete_phase (s : State) : (s.complete).phase = s.phase := rfl
@[simp] theorem complete_mode (s : State) : (s.complete).mode = s.mode := rfl
@[simp] theorem complete_errCode (s : State) : (s.complete).errCode = s.errCode := rfl
@[simp] theorem complete_doneIe (s : State) : (s.complete).doneIe = s.doneIe := rfl
@[simp] theorem complete_errIe (s : State) : (s.complete).errIe = s.errIe := rfl
@[simp] theorem complete_cmd (s : State) : (s.complete).cmd = none := rfl
@[simp] theorem complete_seqStep (s : State) : (s.complete).seqStep = 0 := rfl
@[simp] theorem complete_round (s : State) : (s.complete).round = 0 := rfl
@[simp] theorem complete_scratch (s : State) : (s.complete).scratch = Scratch.zero := rfl
@[simp] theorem complete_port (s : State) : (s.complete).port = s.port := rfl
@[simp] theorem complete_host (s : State) : (s.complete).host = s.host := rfl

/-! ### goto -/

@[simp] theorem goto_params (p : Phase) (m : Mode) (s : State) : (s.goto p m).params = s.params := rfl
@[simp] theorem goto_sponge (p : Phase) (m : Mode) (s : State) : (s.goto p m).sponge = s.sponge := rfl
@[simp] theorem goto_key (p : Phase) (m : Mode) (s : State) : (s.goto p m).key = s.key := rfl
@[simp] theorem goto_nonce (p : Phase) (m : Mode) (s : State) : (s.goto p m).nonce = s.nonce := rfl
@[simp] theorem goto_din (p : Phase) (m : Mode) (s : State) : (s.goto p m).din = s.din := rfl
@[simp] theorem goto_tagin (p : Phase) (m : Mode) (s : State) : (s.goto p m).tagin = s.tagin := rfl
@[simp] theorem goto_out (p : Phase) (m : Mode) (s : State) : (s.goto p m).out = s.out := rfl
@[simp] theorem goto_done (p : Phase) (m : Mode) (s : State) : (s.goto p m).done = s.done := rfl
@[simp] theorem goto_err (p : Phase) (m : Mode) (s : State) : (s.goto p m).err = s.err := rfl
@[simp] theorem goto_tagOk (p : Phase) (m : Mode) (s : State) : (s.goto p m).tagOk = s.tagOk := rfl
@[simp] theorem goto_phase (p : Phase) (m : Mode) (s : State) : (s.goto p m).phase = p := rfl
@[simp] theorem goto_mode (p : Phase) (m : Mode) (s : State) : (s.goto p m).mode = m := rfl
@[simp] theorem goto_errCode (p : Phase) (m : Mode) (s : State) : (s.goto p m).errCode = s.errCode := rfl
@[simp] theorem goto_doneIe (p : Phase) (m : Mode) (s : State) : (s.goto p m).doneIe = s.doneIe := rfl
@[simp] theorem goto_errIe (p : Phase) (m : Mode) (s : State) : (s.goto p m).errIe = s.errIe := rfl
@[simp] theorem goto_cmd (p : Phase) (m : Mode) (s : State) : (s.goto p m).cmd = s.cmd := rfl
@[simp] theorem goto_seqStep (p : Phase) (m : Mode) (s : State) : (s.goto p m).seqStep = s.seqStep := rfl
@[simp] theorem goto_round (p : Phase) (m : Mode) (s : State) : (s.goto p m).round = s.round := rfl
@[simp] theorem goto_scratch (p : Phase) (m : Mode) (s : State) : (s.goto p m).scratch = s.scratch := rfl
@[simp] theorem goto_port (p : Phase) (m : Mode) (s : State) : (s.goto p m).port = s.port := rfl
@[simp] theorem goto_host (p : Phase) (m : Mode) (s : State) : (s.goto p m).host = s.host := rfl

/-! ### absorbed -/

@[simp] theorem absorbed_params (p : Phase) (m : Mode) (s : State) : (s.absorbed p m).params = s.params := rfl
@[simp] theorem absorbed_sponge (p : Phase) (m : Mode) (s : State) : (s.absorbed p m).sponge = s.sponge := rfl
@[simp] theorem absorbed_key (p : Phase) (m : Mode) (s : State) : (s.absorbed p m).key = s.key := rfl
@[simp] theorem absorbed_nonce (p : Phase) (m : Mode) (s : State) : (s.absorbed p m).nonce = s.nonce := rfl
@[simp] theorem absorbed_din (p : Phase) (m : Mode) (s : State) : (s.absorbed p m).din = Quad.zero := rfl
@[simp] theorem absorbed_tagin (p : Phase) (m : Mode) (s : State) : (s.absorbed p m).tagin = s.tagin := rfl
@[simp] theorem absorbed_out (p : Phase) (m : Mode) (s : State) : (s.absorbed p m).out = s.out := rfl
@[simp] theorem absorbed_done (p : Phase) (m : Mode) (s : State) : (s.absorbed p m).done = s.done := rfl
@[simp] theorem absorbed_err (p : Phase) (m : Mode) (s : State) : (s.absorbed p m).err = s.err := rfl
@[simp] theorem absorbed_tagOk (p : Phase) (m : Mode) (s : State) : (s.absorbed p m).tagOk = s.tagOk := rfl
@[simp] theorem absorbed_phase (p : Phase) (m : Mode) (s : State) : (s.absorbed p m).phase = p := rfl
@[simp] theorem absorbed_mode (p : Phase) (m : Mode) (s : State) : (s.absorbed p m).mode = m := rfl
@[simp] theorem absorbed_errCode (p : Phase) (m : Mode) (s : State) : (s.absorbed p m).errCode = s.errCode := rfl
@[simp] theorem absorbed_doneIe (p : Phase) (m : Mode) (s : State) : (s.absorbed p m).doneIe = s.doneIe := rfl
@[simp] theorem absorbed_errIe (p : Phase) (m : Mode) (s : State) : (s.absorbed p m).errIe = s.errIe := rfl
@[simp] theorem absorbed_cmd (p : Phase) (m : Mode) (s : State) : (s.absorbed p m).cmd = s.cmd := rfl
@[simp] theorem absorbed_seqStep (p : Phase) (m : Mode) (s : State) : (s.absorbed p m).seqStep = s.seqStep := rfl
@[simp] theorem absorbed_round (p : Phase) (m : Mode) (s : State) : (s.absorbed p m).round = s.round := rfl
@[simp] theorem absorbed_scratch (p : Phase) (m : Mode) (s : State) : (s.absorbed p m).scratch = s.scratch := rfl
@[simp] theorem absorbed_port (p : Phase) (m : Mode) (s : State) : (s.absorbed p m).port = s.port := rfl
@[simp] theorem absorbed_host (p : Phase) (m : Mode) (s : State) : (s.absorbed p m).host = s.host := rfl

/-! ### atStep -/

@[simp] theorem atStep_params (i : Instr) (k : Nat) (s : State) : (s.atStep i k).params = s.params := rfl
@[simp] theorem atStep_sponge (i : Instr) (k : Nat) (s : State) : (s.atStep i k).sponge = s.sponge := rfl
@[simp] theorem atStep_key (i : Instr) (k : Nat) (s : State) : (s.atStep i k).key = s.key := rfl
@[simp] theorem atStep_nonce (i : Instr) (k : Nat) (s : State) : (s.atStep i k).nonce = s.nonce := rfl
@[simp] theorem atStep_din (i : Instr) (k : Nat) (s : State) : (s.atStep i k).din = s.din := rfl
@[simp] theorem atStep_tagin (i : Instr) (k : Nat) (s : State) : (s.atStep i k).tagin = s.tagin := rfl
@[simp] theorem atStep_out (i : Instr) (k : Nat) (s : State) : (s.atStep i k).out = s.out := rfl
@[simp] theorem atStep_done (i : Instr) (k : Nat) (s : State) : (s.atStep i k).done = s.done := rfl
@[simp] theorem atStep_err (i : Instr) (k : Nat) (s : State) : (s.atStep i k).err = s.err := rfl
@[simp] theorem atStep_tagOk (i : Instr) (k : Nat) (s : State) : (s.atStep i k).tagOk = s.tagOk := rfl
@[simp] theorem atStep_phase (i : Instr) (k : Nat) (s : State) : (s.atStep i k).phase = s.phase := rfl
@[simp] theorem atStep_mode (i : Instr) (k : Nat) (s : State) : (s.atStep i k).mode = s.mode := rfl
@[simp] theorem atStep_errCode (i : Instr) (k : Nat) (s : State) : (s.atStep i k).errCode = s.errCode := rfl
@[simp] theorem atStep_doneIe (i : Instr) (k : Nat) (s : State) : (s.atStep i k).doneIe = s.doneIe := rfl
@[simp] theorem atStep_errIe (i : Instr) (k : Nat) (s : State) : (s.atStep i k).errIe = s.errIe := rfl
@[simp] theorem atStep_cmd (i : Instr) (k : Nat) (s : State) : (s.atStep i k).cmd = s.cmd := rfl
@[simp] theorem atStep_seqStep (i : Instr) (k : Nat) (s : State) : (s.atStep i k).seqStep = k := rfl
@[simp] theorem atStep_round (i : Instr) (k : Nat) (s : State) : (s.atStep i k).round = roundAt s.params i k := rfl
@[simp] theorem atStep_scratch (i : Instr) (k : Nat) (s : State) : (s.atStep i k).scratch = scratchAt s.params i k s.din s.sponge := rfl
@[simp] theorem atStep_port (i : Instr) (k : Nat) (s : State) : (s.atStep i k).port = s.port := rfl
@[simp] theorem atStep_host (i : Instr) (k : Nat) (s : State) : (s.atStep i k).host = s.host := rfl

/-! ### writeIrqEn -/

@[simp] theorem writeIrqEn_params (v : Word) (s : State) : (s.writeIrqEn v).params = s.params := rfl
@[simp] theorem writeIrqEn_sponge (v : Word) (s : State) : (s.writeIrqEn v).sponge = s.sponge := rfl
@[simp] theorem writeIrqEn_key (v : Word) (s : State) : (s.writeIrqEn v).key = s.key := rfl
@[simp] theorem writeIrqEn_nonce (v : Word) (s : State) : (s.writeIrqEn v).nonce = s.nonce := rfl
@[simp] theorem writeIrqEn_din (v : Word) (s : State) : (s.writeIrqEn v).din = s.din := rfl
@[simp] theorem writeIrqEn_tagin (v : Word) (s : State) : (s.writeIrqEn v).tagin = s.tagin := rfl
@[simp] theorem writeIrqEn_out (v : Word) (s : State) : (s.writeIrqEn v).out = s.out := rfl
@[simp] theorem writeIrqEn_done (v : Word) (s : State) : (s.writeIrqEn v).done = s.done := rfl
@[simp] theorem writeIrqEn_err (v : Word) (s : State) : (s.writeIrqEn v).err = s.err := rfl
@[simp] theorem writeIrqEn_tagOk (v : Word) (s : State) : (s.writeIrqEn v).tagOk = s.tagOk := rfl
@[simp] theorem writeIrqEn_phase (v : Word) (s : State) : (s.writeIrqEn v).phase = s.phase := rfl
@[simp] theorem writeIrqEn_mode (v : Word) (s : State) : (s.writeIrqEn v).mode = s.mode := rfl
@[simp] theorem writeIrqEn_errCode (v : Word) (s : State) : (s.writeIrqEn v).errCode = s.errCode := rfl
@[simp] theorem writeIrqEn_doneIe (v : Word) (s : State) : (s.writeIrqEn v).doneIe = v.getLsbD 0 := rfl
@[simp] theorem writeIrqEn_errIe (v : Word) (s : State) : (s.writeIrqEn v).errIe = v.getLsbD 1 := rfl
@[simp] theorem writeIrqEn_cmd (v : Word) (s : State) : (s.writeIrqEn v).cmd = s.cmd := rfl
@[simp] theorem writeIrqEn_seqStep (v : Word) (s : State) : (s.writeIrqEn v).seqStep = s.seqStep := rfl
@[simp] theorem writeIrqEn_round (v : Word) (s : State) : (s.writeIrqEn v).round = s.round := rfl
@[simp] theorem writeIrqEn_scratch (v : Word) (s : State) : (s.writeIrqEn v).scratch = s.scratch := rfl
@[simp] theorem writeIrqEn_port (v : Word) (s : State) : (s.writeIrqEn v).port = s.port := rfl
@[simp] theorem writeIrqEn_host (v : Word) (s : State) : (s.writeIrqEn v).host = s.host := rfl

/-! ### raiseIf -/

@[simp] theorem raiseIf_none (s : State) : s.raiseIf none = s := rfl
@[simp] theorem raiseIf_some (e : ErrCode) (s : State) : s.raiseIf (some e) = s.raise e := rfl
@[simp] theorem raiseIf_params (e : Option ErrCode) (s : State) : (s.raiseIf e).params = s.params := by cases e <;> rfl
@[simp] theorem raiseIf_sponge (e : Option ErrCode) (s : State) : (s.raiseIf e).sponge = s.sponge := by cases e <;> rfl
@[simp] theorem raiseIf_key (e : Option ErrCode) (s : State) : (s.raiseIf e).key = s.key := by cases e <;> rfl
@[simp] theorem raiseIf_nonce (e : Option ErrCode) (s : State) : (s.raiseIf e).nonce = s.nonce := by cases e <;> rfl
@[simp] theorem raiseIf_din (e : Option ErrCode) (s : State) : (s.raiseIf e).din = s.din := by cases e <;> rfl
@[simp] theorem raiseIf_tagin (e : Option ErrCode) (s : State) : (s.raiseIf e).tagin = s.tagin := by cases e <;> rfl
@[simp] theorem raiseIf_out (e : Option ErrCode) (s : State) : (s.raiseIf e).out = s.out := by cases e <;> rfl
@[simp] theorem raiseIf_done (e : Option ErrCode) (s : State) : (s.raiseIf e).done = s.done := by cases e <;> rfl
@[simp] theorem raiseIf_tagOk (e : Option ErrCode) (s : State) : (s.raiseIf e).tagOk = s.tagOk := by cases e <;> rfl
@[simp] theorem raiseIf_phase (e : Option ErrCode) (s : State) : (s.raiseIf e).phase = s.phase := by cases e <;> rfl
@[simp] theorem raiseIf_mode (e : Option ErrCode) (s : State) : (s.raiseIf e).mode = s.mode := by cases e <;> rfl
@[simp] theorem raiseIf_doneIe (e : Option ErrCode) (s : State) : (s.raiseIf e).doneIe = s.doneIe := by cases e <;> rfl
@[simp] theorem raiseIf_errIe (e : Option ErrCode) (s : State) : (s.raiseIf e).errIe = s.errIe := by cases e <;> rfl
@[simp] theorem raiseIf_cmd (e : Option ErrCode) (s : State) : (s.raiseIf e).cmd = s.cmd := by cases e <;> rfl
@[simp] theorem raiseIf_seqStep (e : Option ErrCode) (s : State) : (s.raiseIf e).seqStep = s.seqStep := by cases e <;> rfl
@[simp] theorem raiseIf_round (e : Option ErrCode) (s : State) : (s.raiseIf e).round = s.round := by cases e <;> rfl
@[simp] theorem raiseIf_scratch (e : Option ErrCode) (s : State) : (s.raiseIf e).scratch = s.scratch := by cases e <;> rfl
@[simp] theorem raiseIf_port (e : Option ErrCode) (s : State) : (s.raiseIf e).port = s.port := by cases e <;> rfl
@[simp] theorem raiseIf_host (e : Option ErrCode) (s : State) : (s.raiseIf e).host = s.host := by cases e <;> rfl

/-! ### writeStatus -/

@[simp] theorem writeStatus_params (v : Word) (s : State) : (s.writeStatus v).params = s.params := by
  unfold writeStatus; split <;> split <;> rfl
@[simp] theorem writeStatus_sponge (v : Word) (s : State) : (s.writeStatus v).sponge = s.sponge := by
  unfold writeStatus; split <;> split <;> rfl
@[simp] theorem writeStatus_key (v : Word) (s : State) : (s.writeStatus v).key = s.key := by
  unfold writeStatus; split <;> split <;> rfl
@[simp] theorem writeStatus_nonce (v : Word) (s : State) : (s.writeStatus v).nonce = s.nonce := by
  unfold writeStatus; split <;> split <;> rfl
@[simp] theorem writeStatus_din (v : Word) (s : State) : (s.writeStatus v).din = s.din := by
  unfold writeStatus; split <;> split <;> rfl
@[simp] theorem writeStatus_tagin (v : Word) (s : State) : (s.writeStatus v).tagin = s.tagin := by
  unfold writeStatus; split <;> split <;> rfl
@[simp] theorem writeStatus_out (v : Word) (s : State) : (s.writeStatus v).out = s.out := by
  unfold writeStatus; split <;> split <;> rfl
@[simp] theorem writeStatus_tagOk (v : Word) (s : State) : (s.writeStatus v).tagOk = s.tagOk := by
  unfold writeStatus; split <;> split <;> rfl
@[simp] theorem writeStatus_phase (v : Word) (s : State) : (s.writeStatus v).phase = s.phase := by
  unfold writeStatus; split <;> split <;> rfl
@[simp] theorem writeStatus_mode (v : Word) (s : State) : (s.writeStatus v).mode = s.mode := by
  unfold writeStatus; split <;> split <;> rfl
@[simp] theorem writeStatus_doneIe (v : Word) (s : State) : (s.writeStatus v).doneIe = s.doneIe := by
  unfold writeStatus; split <;> split <;> rfl
@[simp] theorem writeStatus_errIe (v : Word) (s : State) : (s.writeStatus v).errIe = s.errIe := by
  unfold writeStatus; split <;> split <;> rfl
@[simp] theorem writeStatus_cmd (v : Word) (s : State) : (s.writeStatus v).cmd = s.cmd := by
  unfold writeStatus; split <;> split <;> rfl
@[simp] theorem writeStatus_seqStep (v : Word) (s : State) : (s.writeStatus v).seqStep = s.seqStep := by
  unfold writeStatus; split <;> split <;> rfl
@[simp] theorem writeStatus_round (v : Word) (s : State) : (s.writeStatus v).round = s.round := by
  unfold writeStatus; split <;> split <;> rfl
@[simp] theorem writeStatus_scratch (v : Word) (s : State) : (s.writeStatus v).scratch = s.scratch := by
  unfold writeStatus; split <;> split <;> rfl
@[simp] theorem writeStatus_port (v : Word) (s : State) : (s.writeStatus v).port = s.port := by
  unfold writeStatus; split <;> split <;> rfl
@[simp] theorem writeStatus_host (v : Word) (s : State) : (s.writeStatus v).host = s.host := by
  unfold writeStatus; split <;> split <;> rfl

theorem writeStatus_done (v : Word) (s : State) :
    (s.writeStatus v).done = if v.getLsbD 1 then false else s.done := by
  unfold writeStatus; split <;> split <;> rfl
theorem writeStatus_err (v : Word) (s : State) : (s.writeStatus v).err = if v.getLsbD 2 then false else s.err := by
  unfold writeStatus; split <;> split <;> rfl
theorem writeStatus_errCode (v : Word) (s : State) :
    (s.writeStatus v).errCode = if v.getLsbD 2 then .none else s.errCode := by
  unfold writeStatus; split <;> split <;> rfl

/-! ### popHost, busy, resetWith -/

@[simp] theorem popHost_params (s : State) : s.popHost.params = s.params := by unfold popHost; split <;> rfl
@[simp] theorem popHost_sponge (s : State) : s.popHost.sponge = s.sponge := by unfold popHost; split <;> rfl
@[simp] theorem popHost_key (s : State) : s.popHost.key = s.key := by unfold popHost; split <;> rfl
@[simp] theorem popHost_nonce (s : State) : s.popHost.nonce = s.nonce := by unfold popHost; split <;> rfl
@[simp] theorem popHost_din (s : State) : s.popHost.din = s.din := by unfold popHost; split <;> rfl
@[simp] theorem popHost_tagin (s : State) : s.popHost.tagin = s.tagin := by unfold popHost; split <;> rfl
@[simp] theorem popHost_out (s : State) : s.popHost.out = s.out := by unfold popHost; split <;> rfl
@[simp] theorem popHost_done (s : State) : s.popHost.done = s.done := by unfold popHost; split <;> rfl
@[simp] theorem popHost_err (s : State) : s.popHost.err = s.err := by unfold popHost; split <;> rfl
@[simp] theorem popHost_tagOk (s : State) : s.popHost.tagOk = s.tagOk := by unfold popHost; split <;> rfl
@[simp] theorem popHost_phase (s : State) : s.popHost.phase = s.phase := by unfold popHost; split <;> rfl
@[simp] theorem popHost_mode (s : State) : s.popHost.mode = s.mode := by unfold popHost; split <;> rfl
@[simp] theorem popHost_errCode (s : State) : s.popHost.errCode = s.errCode := by unfold popHost; split <;> rfl
@[simp] theorem popHost_doneIe (s : State) : s.popHost.doneIe = s.doneIe := by unfold popHost; split <;> rfl
@[simp] theorem popHost_errIe (s : State) : s.popHost.errIe = s.errIe := by unfold popHost; split <;> rfl
@[simp] theorem popHost_cmd (s : State) : s.popHost.cmd = s.cmd := by unfold popHost; split <;> rfl
@[simp] theorem popHost_seqStep (s : State) : s.popHost.seqStep = s.seqStep := by unfold popHost; split <;> rfl
@[simp] theorem popHost_round (s : State) : s.popHost.round = s.round := by unfold popHost; split <;> rfl
@[simp] theorem popHost_scratch (s : State) : s.popHost.scratch = s.scratch := by unfold popHost; split <;> rfl
@[simp] theorem popHost_port (s : State) : s.popHost.port = s.port := by unfold popHost; split <;> rfl
@[simp] theorem popHost_host (s : State) : s.popHost.host = s.host.tail := by
  unfold popHost; split <;> rename_i h <;> simp [h]

@[simp] theorem nextCycle_of_nil {s : State} (h : s.host = []) : s.nextCycle = Cycle.idle := by simp [nextCycle, h]
@[simp] theorem nextCycle_of_cons {s : State} {c : Cycle} {cs : List Cycle} (h : s.host = c :: cs) :
    s.nextCycle = c := by simp [nextCycle, h]

theorem busy_eq_true_iff (s : State) : s.busy = true ↔ ∃ i, s.cmd = some i := by
  simp [busy, Option.isSome_iff_exists]
theorem busy_eq_false_iff (s : State) : s.busy = false ↔ s.cmd = none := by simp [busy]
@[simp] theorem busy_of_none {s : State} (h : s.cmd = none) : s.busy = false := by simp [busy, h]
@[simp] theorem busy_of_some {s : State} {i : Instr} (h : s.cmd = some i) : s.busy = true := by simp [busy, h]

@[simp] theorem resetWith_params (p : Params) : (State.resetWith p).params = p := rfl
@[simp] theorem resetWith_cmd (p : Params) : (State.resetWith p).cmd = none := rfl
@[simp] theorem resetWith_phase (p : Params) : (State.resetWith p).phase = .idle := rfl

end Sys2Proof.Machine.State
end

