-- ==== Sys2Proof/Laws/Words.lean ====
section
/-! SUPPORT. What the operations over words, bytes, blocks and the sponge state do: reads after writes, and the bytes
of the operations that are written word by word. -/

namespace Sys2Proof.Machine

/-- Bit i of a right rotation by n is bit (i + n) mod 32 (spec/00_scope.md R8). -/
theorem rotr32_getLsbD (x : Word) (n : Nat) (hn : n < 32) (i : Nat) (hi : i < 32) :
    (rotr32 x n).getLsbD i = x.getLsbD ((i + n) % 32) := by
  unfold rotr32
  simp only [BitVec.getLsbD_or, BitVec.getLsbD_ushiftRight, BitVec.getLsbD_shiftLeft, hi, decide_true,
    Bool.true_and]
  by_cases h : i + n < 32
  · have h1 : i < 32 - n := by omega
    rw [Nat.mod_eq_of_lt h]
    simp [h1, Nat.add_comm]
  · have h1 : ¬ i < 32 - n := by omega
    have h2 : (i + n) % 32 = i + n - 32 := by omega
    have h3 : i - (32 - n) = i + n - 32 := by omega
    have h4 : x.getLsbD (n + i) = false := BitVec.getLsbD_of_ge x (n + i) (by omega)
    simp [h1, h2, h3, h4]

theorem rotr32_xor (x y : Word) (n : Nat) (hn : n < 32) : rotr32 (x ^^^ y) n = rotr32 x n ^^^ rotr32 y n := by
  apply BitVec.eq_of_getLsbD_eq
  intro i hi
  simp only [rotr32_getLsbD _ n hn i hi, BitVec.getLsbD_xor]

/-- Two words with the same four bytes are the same word. -/
theorem word_ext_bytes {v w : Word} (h : ∀ j : Fin 4, wordByte v j = wordByte w j) : v = w := by
  apply BitVec.eq_of_getLsbD_eq
  intro i hi
  have := congrArg (fun b => b.getLsbD (i % 8)) (h ⟨i / 8, by omega⟩)
  simp only [wordByte, BitVec.getLsbD_extractLsb'] at this
  have e : 8 * (i / 8) + i % 8 = i := by omega
  have l : i % 8 < 8 := by omega
  simpa [e, l] using this

theorem wordByte_xor (v w : Word) (j : Fin 4) : wordByte (v ^^^ w) j = wordByte v j ^^^ wordByte w j := by
  simp [wordByte, BitVec.extractLsb'_xor]

/-- The bytes of LE32. -/
theorem wordByte_le32 (a b c d : Byte) (j : Fin 4) :
    wordByte (le32 a b c d) j = match j with | 0 => a | 1 => b | 2 => c | 3 => d := by
  apply BitVec.eq_of_getLsbD_eq
  intro i hi
  fin_cases j <;> interval_cases i <;> simp [wordByte, le32]

end Sys2Proof.Machine

namespace Sys2Proof

open Machine

@[simp] theorem Quad.get_set_self (q : Quad) (k : Fin 4) (v : Word) : (q.set k v).get k = v := by
  fin_cases k <;> rfl

theorem Quad.get_set_of_ne (q : Quad) {k j : Fin 4} (h : j ≠ k) (v : Word) : (q.set k v).get j = q.get j := by
  fin_cases k <;> fin_cases j <;> first | rfl | exact absurd rfl h

theorem Quad.ext_get {a b : Quad} (h : ∀ k, a.get k = b.get k) : a = b := by
  have h0 := h 0; have h1 := h 1; have h2 := h 2; have h3 := h 3
  cases a; cases b
  simp_all [Quad.get]

/-- Two blocks with the same sixteen bytes are the same block. -/
theorem Quad.ext_byte {a b : Quad} (h : ∀ j, a.byte j = b.byte j) : a = b := by
  apply Quad.ext_get
  intro k
  apply word_ext_bytes
  intro j
  have := h ⟨4 * k.val + j.val, by omega⟩
  have e1 : (4 * k.val + j.val) / 4 = k.val := by omega
  have e2 : (4 * k.val + j.val) % 4 = j.val := by omega
  simpa [Quad.byte, e1, e2] using this

theorem Quad.get_xor (a b : Quad) (k : Fin 4) : (a.xor b).get k = a.get k ^^^ b.get k := by
  fin_cases k <;> rfl

/-- Bytes of an XOR. -/
theorem Quad.byte_xor (a b : Quad) (j : Fin 16) : (a.xor b).byte j = a.byte j ^^^ b.byte j := by
  simp [Quad.byte, Quad.get_xor, wordByte_xor]

/-- The bytes of a block made from bytes. -/
theorem Quad.byte_ofBytes (f : Fin 16 → Byte) (j : Fin 16) : (Quad.ofBytes f).byte j = f j := by
  fin_cases j <;> simp [Quad.byte, Quad.ofBytes, Quad.get, wordByte_le32]

theorem Quad.xor_comm (a b : Quad) : a.xor b = b.xor a := by
  simp [Quad.xor, BitVec.xor_comm]

theorem Quad.xor_assoc (a b c : Quad) : (a.xor b).xor c = a.xor (b.xor c) := by
  simp [Quad.xor, BitVec.xor_assoc]

@[simp] theorem Quad.xor_self (a : Quad) : a.xor a = Quad.zero := by simp [Quad.xor, Quad.zero]
@[simp] theorem Quad.xor_zero (a : Quad) : a.xor Quad.zero = a := by simp [Quad.xor, Quad.zero]
@[simp] theorem Quad.zero_xor (a : Quad) : Quad.zero.xor a = a := by simp [Quad.xor, Quad.zero]

@[simp] theorem Oct.get_set_self (o : Oct) (k : Fin 8) (v : Word) : (o.set k v).get k = v := by
  fin_cases k <;> rfl

theorem Oct.get_set_of_ne (o : Oct) {k j : Fin 8} (h : j ≠ k) (v : Word) : (o.set k v).get j = o.get j := by
  fin_cases k <;> fin_cases j <;> first | rfl | exact absurd rfl h

end Sys2Proof

namespace Sys2Proof.Machine

@[simp] theorem Sponge.get_set_self (S : Sponge) (k : Fin 12) (v : Word) : (S.set k v).get k = v := by
  fin_cases k <;> rfl

theorem Sponge.get_set_of_ne (S : Sponge) {k j : Fin 12} (h : j ≠ k) (v : Word) :
    (S.set k v).get j = S.get j := by
  fin_cases k <;> fin_cases j <;> first | rfl | exact absurd rfl h

@[simp] theorem rate_setRate (b : Quad) (S : Sponge) : rate (setRate b S) = b := rfl
@[simp] theorem setRate_p1 (b : Quad) (S : Sponge) : (setRate b S).p1 = S.p1 := rfl
@[simp] theorem setRate_p2 (b : Quad) (S : Sponge) : (setRate b S).p2 = S.p2 := rfl

/-- The bytes of Mask(b, L) (spec/41_session.md R153). -/
theorem byte_mask (b : Quad) (len : BitVec 4) (j : Fin 16) :
    (mask b len).byte j = if j.val < len.toNat then b.byte j else 0 := Quad.byte_ofBytes _ j

theorem byte_setByte (b : Quad) (len : BitVec 4) (v : Byte) (j : Fin 16) :
    (setByte b len v).byte j = if j.val = len.toNat then v else b.byte j := Quad.byte_ofBytes _ j

/-- The bytes of Pad(b, L) (R153). -/
theorem byte_pad (b : Quad) (len : BitVec 4) (j : Fin 16) :
    (pad b len).byte j = if j.val = len.toNat then 0x80 else if j.val < len.toNat then b.byte j else 0 := by
  simp only [pad, byte_setByte, byte_mask]

/-- Masking twice is masking once. -/
@[simp] theorem mask_mask (b : Quad) (len : BitVec 4) : mask (mask b len) len = mask b len := by
  apply Quad.ext_byte
  intro j
  simp only [byte_mask]
  split <;> rfl

end Sys2Proof.Machine
end

