-- ==== Sys2Proof/Laws/Command.lean ====
section
/-! SUPPORT. What presenting a command and carrying it out can do: one lemma for the checks, one for the whole
command, and what no command's effect touches. -/

namespace Sys2Proof.Machine

/-- A command word is accepted exactly when no command is in progress, the word decodes, and the phase machine
allows it (spec/41_session.md R154). -/
theorem checkCommand_eq_none_iff (s : State) (d : Option Instr) :
    s.checkCommand d = none ↔ s.cmd = none ∧ ∃ i, d = some i ∧ legalCommand i s.phase s.mode = true := by
  unfold State.checkCommand
  by_cases hb : s.cmd = none
  · cases d with
    | none => simp [hb]
    | some i => by_cases hl : legalCommand i s.phase s.mode = true <;> simp [hb, hl]
  · obtain ⟨j, hj⟩ := Option.ne_none_iff_exists'.mp hb
    simp [hj]

/-- A command is accepted exactly when no command is in progress, the implementation has it, and the phase machine
allows it. -/
theorem checkInstr_eq_none_iff (s : State) (i : Instr) :
    s.checkInstr i = none ↔
      s.cmd = none ∧ i.wellFormed s.params = true ∧ legalCommand i s.phase s.mode = true := by
  unfold State.checkInstr
  rw [checkCommand_eq_none_iff]
  by_cases hw : i.wellFormed s.params = true <;> simp [hw]

/-- The error of a rejected command is never TAG_FAIL, ADDR_ERR or NONE. -/
theorem checkCommand_some {s : State} {d : Option Instr} {e : ErrCode} (h : s.checkCommand d = some e) :
    (s.busy = true ∧ e = .busyErr) ∨ (s.busy = false ∧ d = none ∧ e = .illegalCmd) ∨
      (s.busy = false ∧ (∃ i, d = some i ∧ legalCommand i s.phase s.mode = false) ∧ e = .seqErr) := by
  unfold State.checkCommand at h
  by_cases hb : s.busy = true
  · simp_all
  · cases d with
    | none => simp_all
    | some i => by_cases hl : legalCommand i s.phase s.mode = true <;> simp_all

/-- An accepted command is carried out whole. -/
theorem command_of_accepted {s : State} {i : Instr} {f : State → State} (h : s.checkInstr i = none) :
    s.command i f = .next (f (s.accept i)).complete := by
  simp [State.command, h]

/-- A rejected command raises its error and has no other effect. -/
theorem command_of_rejected {s : State} {i : Instr} {f : State → State} {e : ErrCode}
    (h : s.checkInstr i = some e) : s.command i f = .next (s.raise e) := by
  simp [State.command, h]

/-- Everything one whole command can do. -/
theorem command_cases {s t : State} {i : Instr} {f : State → State} (h : s.command i f = .next t) :
    (∃ e, s.checkInstr i = some e ∧ t = s.raise e) ∨
      (s.checkInstr i = none ∧ t = (f (s.accept i)).complete) := by
  cases hc : s.checkInstr i with
  | none => rw [command_of_accepted hc] at h; cases h; exact .inr ⟨rfl, rfl⟩
  | some e => rw [command_of_rejected hc] at h; cases h; exact .inl ⟨e, rfl, rfl⟩

/-- The pseudocode of each command, by name. -/
def commandEffect : Instr → State → State
  | .init na => initEffect na
  | .encBlock => encBlockEffect
  | .encFinal len => encFinalEffect len
  | .decBlock => decBlockEffect
  | .decFinal len => decFinalEffect len
  | .hashBlock => hashBlockEffect
  | .hashFinal len => hashFinalEffect len
  | .zeroize => zeroizeEffect
  | .permute => permuteEffect

/-- Every instruction is one whole command with its own pseudocode. -/
theorem exec_eq_command (i : Instr) (s : State) : exec i s = s.command i (commandEffect i) := by
  cases i <;> rfl

/-- Everything an instruction can do. -/
theorem exec_cases {s t : State} {i : Instr} (h : exec i s = .next t) :
    (∃ e, s.checkInstr i = some e ∧ t = s.raise e) ∨
      (s.checkInstr i = none ∧ t = (commandEffect i (s.accept i)).complete) := by
  rw [exec_eq_command] at h
  exact command_cases h

theorem exec_of_accepted {s : State} {i : Instr} (h : s.checkInstr i = none) :
    exec i s = .next (commandEffect i (s.accept i)).complete := by
  rw [exec_eq_command, command_of_accepted h]

theorem exec_of_rejected {s : State} {i : Instr} {e : ErrCode} (h : s.checkInstr i = some e) :
    exec i s = .next (s.raise e) := by
  rw [exec_eq_command, command_of_rejected h]

/-- Every instruction answers a next state. -/
theorem exec_next (i : Instr) (s : State) : ∃ t, exec i s = .next t := by
  cases h : s.checkInstr i with
  | none => exact ⟨_, exec_of_accepted h⟩
  | some e => exact ⟨_, exec_of_rejected h⟩

/-! ### What no command's effect touches -/

@[simp] theorem commandEffect_params (i : Instr) (s : State) : (commandEffect i s).params = s.params := by
  cases i <;> first | rfl | (simp only [commandEffect, decFinalEffect]; split <;> rfl)
@[simp] theorem commandEffect_doneIe (i : Instr) (s : State) : (commandEffect i s).doneIe = s.doneIe := by
  cases i <;> first | rfl | (simp only [commandEffect, decFinalEffect]; split <;> rfl)
@[simp] theorem commandEffect_errIe (i : Instr) (s : State) : (commandEffect i s).errIe = s.errIe := by
  cases i <;> first | rfl | (simp only [commandEffect, decFinalEffect]; split <;> rfl)
@[simp] theorem commandEffect_port (i : Instr) (s : State) : (commandEffect i s).port = s.port := by
  cases i <;> first | rfl | (simp only [commandEffect, decFinalEffect]; split <;> rfl)
@[simp] theorem commandEffect_host (i : Instr) (s : State) : (commandEffect i s).host = s.host := by
  cases i <;> first | rfl | (simp only [commandEffect, decFinalEffect]; split <;> rfl)

/-! ### The two outcomes of DEC_FINAL -/

/-- The comparison finds a difference exactly when the two tags differ (spec/43_decrypt.md R201). -/
theorem tagDiff_eq_zero_iff (a b : Quad) : tagDiff a b = 0 ↔ a = b := by
  have step : ∀ (l : List (Fin 16)) (d : Byte),
      l.foldl (fun diff k => diff ||| (a.byte k ^^^ b.byte k)) d = 0 ↔
        d = 0 ∧ ∀ k ∈ l, a.byte k = b.byte k := by
    intro l
    induction l with
    | nil => intro d; simp
    | cons k l ih =>
      intro d
      rw [List.foldl_cons, ih]
      have h0 : d ||| a.byte k ^^^ b.byte k = 0 ↔ d = 0 ∧ a.byte k = b.byte k := by
        have h1 : a.byte k ^^^ b.byte k = 0#8 ↔ a.byte k = b.byte k := BitVec.xor_eq_zero_iff
        rw [← h1]
        exact BitVec.or_eq_zero_iff
      rw [h0]
      simp [and_assoc]
  unfold tagDiff
  rw [step]
  constructor
  · rintro ⟨-, h⟩
    exact Quad.ext_byte fun j => h j (List.mem_finRange j)
  · rintro rfl
    simp

/-- DEC_FINAL with the right tag (R201). -/
theorem decFinalEffect_of_match {len : BitVec 4} {s : State}
    (h : s.tagin = rate (permute (decFinalAbsorb len s.din s.sponge))) :
    decFinalEffect len s =
      { s.absorbed .finalized .dec with
        sponge := permute (permute (decFinalAbsorb len s.din s.sponge)), tagin := Quad.zero
        out := ⟨mask (decFinalBlock len s.din s.sponge) len, Quad.zero⟩, tagOk := true } := by
  have hd : tagDiff (rate (permute (decFinalAbsorb len s.din s.sponge))) s.tagin = 0 :=
    (tagDiff_eq_zero_iff _ _).mpr h.symm
  unfold decFinalEffect
  exact if_pos hd

/-- DEC_FINAL with another tag (R201, R246). -/
theorem decFinalEffect_of_mismatch {len : BitVec 4} {s : State}
    (h : s.tagin ≠ rate (permute (decFinalAbsorb len s.din s.sponge))) :
    decFinalEffect len s =
      { s.absorbed .finalized .dec with
        sponge := permute (permute (decFinalAbsorb len s.din s.sponge)), tagin := Quad.zero
        out := Oct.zero, tagOk := false, err := true, errCode := .tagFail } := by
  have hd : ¬ tagDiff (rate (permute (decFinalAbsorb len s.din s.sponge))) s.tagin = 0 :=
    fun e => h ((tagDiff_eq_zero_iff _ _).mp e).symm
  unfold decFinalEffect
  exact if_neg hd

end Sys2Proof.Machine
end

