-- ==== Sys2Proof/Laws/Bus.lean ====
section
/-! SUPPORT. What one host access can do to the state: nothing, a write of STATUS or IRQ_EN, the acceptance of a
command, or a write of one input register; and only the first three while a command is in progress. -/

namespace Sys2Proof.Machine

/-- The address map finds every register at its offset (spec/20_memory.md R63), the STATE window where it exists. -/
theorem regAt_offsetOf (p : Params) (r : Reg) (h : ∀ k, r = .stateWord k → p.debug = true) :
    regAt p (offsetOf r) = some r := by
  cases r with
  | stateWord k => simp only [regAt, regAtNat, h k rfl]; fin_cases k <;> rfl
  | key k => fin_cases k <;> rfl
  | nonce k => fin_cases k <;> rfl
  | din k => fin_cases k <;> rfl
  | tagin k => fin_cases k <;> rfl
  | out k => fin_cases k <;> rfl
  | _ => rfl

/-- A misaligned access is refused (R65). -/
theorem regAt_of_misaligned (p : Params) {a : BitVec 8} (h : a.toNat % 4 ≠ 0) : regAt p a = none := by
  simp [regAt, regAtNat, h]

/-- A conditional that answers `r` although its first branch does not, answers it by its second. -/
theorem eq_some_of_ite {c : Prop} [Decidable c] {x y : Option Reg} {r : Reg}
    (h : (if c then x else y) = some r) (hx : x ≠ some r) : y = some r := by
  by_cases hc : c
  · rw [if_pos hc] at h; exact absurd h hx
  · rwa [if_neg hc] at h

theorem eq_some_of_dite {c : Prop} [Decidable c] {x : c → Option Reg} {y : Option Reg} {r : Reg}
    (h : (if hc : c then x hc else y) = some r) (hx : ∀ hc, x hc ≠ some r) : y = some r := by
  by_cases hc : c
  · rw [dif_pos hc] at h; exact absurd h (hx hc)
  · rwa [dif_neg hc] at h

/-- The STATE window is mapped only when P_DEBUG = 1 (R64). -/
theorem debug_of_regAt_stateWord {p : Params} {a : BitVec 8} {k : Fin 12} (h : regAt p a = some (.stateWord k)) :
    p.debug = true := by
  unfold regAt regAtNat at h
  iterate 6 replace h := eq_some_of_ite h (fun hh => by cases hh)
  iterate 5 replace h := eq_some_of_dite h (fun _ hh => by cases hh)
  by_contra hd
  rw [dif_neg (fun hh => hd hh.1)] at h
  cases h

/-- Everything the effect of an access can be. -/
theorem accessEffect_cases (c : Cycle) (s : State) :
    accessEffect c s = s ∨ (∃ v, accessEffect c s = s.writeStatus v) ∨ (∃ v, accessEffect c s = s.writeIrqEn v) ∨
    (s.cmd = none ∧
      ((∃ i, decode s.params c.wdata = some i ∧ legalCommand i s.phase s.mode = true ∧
          accessEffect c s = s.accept i) ∨
        (∃ k v, accessEffect c s = { s with key := s.key.set k v }) ∨
        (∃ k v, accessEffect c s = { s with nonce := s.nonce.set k v }) ∨
        (∃ k v, accessEffect c s = { s with din := s.din.set k v }) ∨
        (∃ k v, accessEffect c s = { s with tagin := s.tagin.set k v }) ∨
        (s.params.debug = true ∧ ∃ k v, accessEffect c s = { s with sponge := s.sponge.set k v }))) := by
  unfold accessEffect
  split
  · cases hr : regAt s.params c.addr with
    | none => exact .inl rfl
    | some r =>
      by_cases hb : s.cmd = none
      · cases r with
        | id => exact .inl rfl
        | errCode => exact .inl rfl
        | out k => exact .inl rfl
        | status => exact .inr (.inl ⟨_, rfl⟩)
        | irqEn => exact .inr (.inr (.inl ⟨_, rfl⟩))
        | cmd =>
          simp only [writeEffect, State.latch]
          cases hd : decode s.params c.wdata with
          | none => exact .inl rfl
          | some i =>
            cases hc : s.checkCommand (some i) with
            | some e => exact .inl (by simp [hc])
            | none =>
              obtain ⟨-, j, hj, hl⟩ := (checkCommand_eq_none_iff s (some i)).mp hc
              cases hj
              exact .inr (.inr (.inr ⟨hb, .inl ⟨i, rfl, hl, by simp [hc]⟩⟩))
        | key k => exact .inr (.inr (.inr ⟨hb, .inr (.inl ⟨k, c.wdata, by simp [writeEffect, hb]⟩)⟩))
        | nonce k => exact .inr (.inr (.inr ⟨hb, .inr (.inr (.inl ⟨k, c.wdata, by simp [writeEffect, hb]⟩))⟩))
        | din k =>
          exact .inr (.inr (.inr ⟨hb, .inr (.inr (.inr (.inl ⟨k, c.wdata, by simp [writeEffect, hb]⟩)))⟩))
        | tagin k =>
          exact .inr (.inr (.inr ⟨hb, .inr (.inr (.inr (.inr (.inl ⟨k, c.wdata, by simp [writeEffect, hb]⟩))))⟩))
        | stateWord k =>
          have hdbg : s.params.debug = true :=
            debug_of_regAt_stateWord hr
          exact .inr (.inr (.inr ⟨hb, .inr (.inr (.inr (.inr (.inr
            ⟨hdbg, k, c.wdata, by simp [writeEffect, hb]⟩))))⟩))
      · obtain ⟨j, hj⟩ := Option.ne_none_iff_exists'.mp hb
        cases r with
        | status => exact .inr (.inl ⟨_, rfl⟩)
        | irqEn => exact .inr (.inr (.inl ⟨_, rfl⟩))
        | cmd =>
          left
          simp only [writeEffect, State.latch]
          cases decode s.params c.wdata with
          | none => rfl
          | some i => simp [State.checkCommand, hj]
        | _ => left; simp [writeEffect, hj]
  · exact .inl rfl

/-- While a command is in progress an access changes STATUS or IRQ_EN at most (spec/70_reset_and_hazards.md R281). -/
theorem accessEffect_of_busy {s : State} {i : Instr} (h : s.cmd = some i) (c : Cycle) :
    accessEffect c s = s ∨ (∃ v, accessEffect c s = s.writeStatus v) ∨ (∃ v, accessEffect c s = s.writeIrqEn v) := by
  rcases accessEffect_cases c s with h1 | h1 | h1 | ⟨h1, -⟩
  · exact .inl h1
  · exact .inr (.inl h1)
  · exact .inr (.inr h1)
  · simp [h] at h1

theorem accessEffect_params (c : Cycle) (s : State) : (accessEffect c s).params = s.params := by
  rcases accessEffect_cases c s with h | ⟨v, h⟩ | ⟨v, h⟩ | ⟨-, ⟨i, -, -, h⟩ | ⟨k, v, h⟩ | ⟨k, v, h⟩ | ⟨k, v, h⟩ |
    ⟨k, v, h⟩ | ⟨-, k, v, h⟩⟩ <;> rw [h] <;> simp

theorem accessEffect_host (c : Cycle) (s : State) : (accessEffect c s).host = s.host := by
  rcases accessEffect_cases c s with h | ⟨v, h⟩ | ⟨v, h⟩ | ⟨-, ⟨i, -, -, h⟩ | ⟨k, v, h⟩ | ⟨k, v, h⟩ | ⟨k, v, h⟩ |
    ⟨k, v, h⟩ | ⟨-, k, v, h⟩⟩ <;> rw [h] <;> simp

/-- An access never completes or drops a command in progress. -/
theorem accessEffect_cmd_of_busy {s : State} {i : Instr} (h : s.cmd = some i) (c : Cycle) :
    (accessEffect c s).cmd = some i := by
  rcases accessEffect_of_busy h c with h1 | ⟨v, h1⟩ | ⟨v, h1⟩ <;> rw [h1] <;> simp [h]

/-- With no access presented nothing changes. -/
@[simp] theorem accessEffect_idle (s : State) : accessEffect Cycle.idle s = s := rfl
@[simp] theorem accessError_idle (s : State) : accessError Cycle.idle s = none := rfl
@[simp] theorem portOut_idle (s : State) : portOut Cycle.idle s = PortOut.quiet := rfl

/-- A read raises nothing but ADDR_ERR (spec/20_memory.md R66). -/
theorem accessError_read {c : Cycle} {s : State} {e : ErrCode} (hw : c.we = false) (h : accessError c s = some e) :
    e = .addrErr ∧ regAt s.params c.addr = none := by
  unfold accessError at h
  split at h
  · cases hr : regAt s.params c.addr with
    | none => simp [hr] at h; exact ⟨h.symm, rfl⟩
    | some r => simp [hr, hw] at h
  · simp at h

/-- A write presented at a register's offset is that register's BusWrite (R67). -/
theorem access_write (r : Reg) (v : Word) (s : State) (h : ∀ k, r = .stateWord k → s.params.debug = true) :
    accessEffect (Cycle.write (offsetOf r) v) s = writeEffect r v s ∧
      accessError (Cycle.write (offsetOf r) v) s = writeError r v s := by
  constructor <;> simp [accessEffect, accessError, Cycle.write, regAt_offsetOf s.params r h]

/-- The error of an access is one of the four that an access can raise (spec/60_exceptions.md R241, R249). -/
theorem accessError_cases {c : Cycle} {s : State} {e : ErrCode} (h : accessError c s = some e) :
    e = .addrErr ∨ e = .busyErr ∨ e = .illegalCmd ∨ e = .seqErr := by
  unfold accessError at h
  split at h
  · cases hr : regAt s.params c.addr with
    | none => simp [hr] at h; exact .inl h.symm
    | some r =>
      simp only [hr] at h
      split at h
      · cases r with
        | cmd =>
          rcases checkCommand_some h with ⟨-, h1⟩ | ⟨-, -, h1⟩ | ⟨-, -, h1⟩
          · exact .inr (.inl h1)
          · exact .inr (.inr (.inl h1))
          · exact .inr (.inr (.inr h1))
        | _ =>
          simp only [writeError] at h
          first
            | cases h
            | (split at h <;> cases h; exact .inr (.inl rfl))
      · cases h
  · cases h

end Sys2Proof.Machine
end

