-- ==== Sys2Proof/Laws/Clock.lean ====
section
/-! SUPPORT. What one clock cycle can do, said once: a reset, an access with no command in progress, one cycle of the
BUSY window, or a completion. -/

namespace Sys2Proof.Machine

theorem step_eq (s : State) : step s = clockEdge s.nextCycle s.popHost := rfl

/-- With nothing listed, a step is a cycle with no access. -/
theorem step_of_nil {s : State} (h : s.host = []) : step s = clockEdge Cycle.idle s := by
  simp [step, State.nextCycle, State.popHost, h]

/-- With a cycle listed, a step is that cycle on the state without it. -/
theorem step_of_cons {s : State} {c : Cycle} {cs : List Cycle} (h : s.host = c :: cs) :
    step s = clockEdge c { s with host := cs } := by
  simp [step, State.nextCycle, State.popHost, h]

/-- A cycle with rst_i = 1 (spec/70_reset_and_hazards.md R270). -/
theorem clockEdge_of_rst {c : Cycle} (h : c.rst = true) (s : State) :
    clockEdge c s = .next { State.resetWith s.params with port := portOut c s, host := s.host } := by
  simp [clockEdge, h]

/-- A cycle with no command in progress: the access alone. -/
theorem clockEdge_of_idle {c : Cycle} {s : State} (hr : c.rst = false) (h : s.cmd = none) :
    clockEdge c s = .next ({ accessEffect c s with port := portOut c s }.raiseIf (accessError c s)) := by
  simp [clockEdge, hr, h]

/-- A cycle of the BUSY window before the last. -/
theorem clockEdge_of_window {c : Cycle} {s : State} {i : Instr} (hr : c.rst = false) (h : s.cmd = some i)
    (hl : s.lastCycle i = false) :
    clockEdge c s =
      .next (({ accessEffect c s with port := portOut c s }.tick i).raiseIf (accessError c s)) := by
  simp [clockEdge, hr, h, hl]

/-- The last cycle of the BUSY window: the latched command is carried out. -/
theorem clockEdge_of_last {c : Cycle} {s : State} {i : Instr} (hr : c.rst = false) (h : s.cmd = some i)
    (hl : s.lastCycle i = true) :
    clockEdge c s =
      mapNext (State.raiseIf (accessError c s))
        (exec i { accessEffect c s with port := portOut c s }.release) := by
  simp [clockEdge, hr, h, hl]

/-- Everything one clock cycle can do. -/
theorem clockEdge_cases {c : Cycle} {s t : State} (h : clockEdge c s = .next t) :
    (c.rst = true ∧ t = { State.resetWith s.params with port := portOut c s, host := s.host }) ∨
    (c.rst = false ∧ s.cmd = none ∧
      t = ({ accessEffect c s with port := portOut c s }.raiseIf (accessError c s))) ∨
    (c.rst = false ∧ (∃ i, s.cmd = some i ∧ s.lastCycle i = false ∧
      t = (({ accessEffect c s with port := portOut c s }.tick i).raiseIf (accessError c s)))) ∨
    (c.rst = false ∧ (∃ i u, s.cmd = some i ∧ s.lastCycle i = true ∧
      exec i { accessEffect c s with port := portOut c s }.release = .next u ∧
      t = u.raiseIf (accessError c s))) := by
  cases hr : c.rst with
  | true => rw [clockEdge_of_rst hr] at h; cases h; exact .inl ⟨rfl, rfl⟩
  | false =>
    cases hc : s.cmd with
    | none => rw [clockEdge_of_idle hr hc] at h; cases h; exact .inr (.inl ⟨rfl, rfl, rfl⟩)
    | some i =>
      cases hl : s.lastCycle i with
      | false =>
        rw [clockEdge_of_window hr hc hl] at h; cases h
        exact .inr (.inr (.inl ⟨rfl, i, rfl, hl, rfl⟩))
      | true =>
        rw [clockEdge_of_last hr hc hl] at h
        obtain ⟨u, hu⟩ := exec_next i { accessEffect c s with port := portOut c s }.release
        rw [hu] at h
        cases h
        exact .inr (.inr (.inr ⟨rfl, i, u, rfl, hl, hu, rfl⟩))

end Sys2Proof.Machine
end

