-- ==== Sys2Proof/Laws/PerInstr.lean ====
section
/-! SUPPORT. The families of lemmas that hold of every instruction, one lemma for each constructor. -/

/-- The word of an instruction has every reserved bit zero (spec/30_encoding.md R95). -/
def Sys2Proof.Laws.ReservedBitsZero.Statement (i : Sys2Proof.Instr) : Prop :=
  Sys2Proof.encode i &&& Sys2Proof.reservedMask = 0

namespace Sys2Proof.Laws.ReservedBitsZero

theorem init (na : Bool) : Statement (.init na) := by revert na; unfold Statement; decide
theorem encBlock : Statement .encBlock := by unfold Statement; decide
theorem encFinal (len : BitVec 4) : Statement (.encFinal len) := by revert len; unfold Statement; decide
theorem decBlock : Statement .decBlock := by unfold Statement; decide
theorem decFinal (len : BitVec 4) : Statement (.decFinal len) := by revert len; unfold Statement; decide
theorem hashBlock : Statement .hashBlock := by unfold Statement; decide
theorem hashFinal (len : BitVec 4) : Statement (.hashFinal len) := by revert len; unfold Statement; decide
theorem zeroize : Statement .zeroize := by unfold Statement; decide
theorem permute : Statement .permute := by unfold Statement; decide

end Sys2Proof.Laws.ReservedBitsZero
end

