-- ==== Sys2Proof/Machine/HostProgram.lean ====
section
/-! DEFINITION. Host access sequences, the text form of spec/30_encoding.md R100 and R101 as data, each expanded to
the bus cycles it stands for. A host program is outside the block: it is what `State.host` is filled with. -/

namespace Sys2Proof.Machine

/-- One line of a host program (R100). `wait` is given the number of polls, because how often the host reads STATUS
before it sees BUSY = 0 depends on when it asks. -/
inductive HostOp where
  /-- WR reg, imm32 -/
  | wr (r : Reg) (v : Word)
  /-- RD reg -/
  | rd (r : Reg)
  /-- CMD mnemonic: the write of the command's word to CMD -/
  | cmd (i : Instr)
  /-- WAIT: RD STATUS, repeated -/
  | wait (polls : Nat)
  deriving DecidableEq, Repr

/-- The bus cycles of one line (R100). -/
def HostOp.cycles : HostOp → List Cycle
  | .wr r v => [Cycle.write (offsetOf r) v]
  | .rd r => [Cycle.read (offsetOf r)]
  | .cmd i => [Cycle.write (offsetOf .cmd) (encode i)]
  | .wait polls => List.replicate polls (Cycle.read (offsetOf .status))

/-- The bus cycles of a host program. -/
def hostCycles (prog : List HostOp) : List Cycle := prog.flatMap HostOp.cycles

/-- LDKEY b (R101). -/
def ldKey (b : Oct) : List HostOp := (List.finRange 8).map fun k => .wr (.key k) (b.get k)

/-- LDNONCE b (R101). -/
def ldNonce (b : Quad) : List HostOp := (List.finRange 4).map fun k => .wr (.nonce k) (b.get k)

/-- LDDIN b (R101); a short final block is given zero-filled. -/
def ldDin (b : Quad) : List HostOp := (List.finRange 4).map fun k => .wr (.din k) (b.get k)

/-- LDTAG b (R101). -/
def ldTag (b : Quad) : List HostOp := (List.finRange 4).map fun k => .wr (.tagin k) (b.get k)

/-- RDOUT (R101). -/
def rdOut : List HostOp := (List.finRange 8).map fun k => .rd (.out k)

/-- RUN command (R101): CMD, then WAIT. A host that polls every cycle reads STATUS once in each of the L cycles of
the BUSY window and once after it (spec/70_reset_and_hazards.md R280). -/
def run (p : Params) (i : Instr) : List HostOp := [.cmd i, .wait (latency p i + 1)]

end Sys2Proof.Machine
end

