-- ==== Sys2Proof/Tests/Slice0.lean ====
section
/-! SUPPORT. The model's own tests, and a witness for the hypotheses of every statement of
Sys2Proof/Certificates/Slice0/Obligations.lean that has some. The expected values of the tests are those of
spec/95_test_vectors.md, whose section is named at each. -/

namespace Sys2Proof.Tests

set_option Elab.async false

open Sys2Proof Sys2Proof.Machine

/-! ### Small states -/

/-- After reset, with P_DEBUG = 1. -/
def debugReset : State := State.resetWith Params.everyRow

/-- After reset with the key 0x01 x 32 and the nonce 0x02 x 16 written. -/
def keyed : State :=
  { State.reset with
    key := ⟨⟨0x01010101, 0x01010101, 0x01010101, 0x01010101⟩, ⟨0x01010101, 0x01010101, 0x01010101, 0x01010101⟩⟩
    nonce := ⟨0x02020202, 0x02020202, 0x02020202, 0x02020202⟩ }

/-- S after INIT on `keyed` (section 2.3, first row). -/
def initSponge : Sponge :=
  ⟨⟨0x5c09ea28, 0x3c9fe1a9, 0x907348bb, 0xbdc176c8⟩, ⟨0x8e961fc8, 0x094ee1e8, 0xcab84eee, 0x54f08e59⟩,
    ⟨0x0a37dd71, 0xc2db6557, 0x1938dcc0, 0x591f16ac⟩⟩

/-- After INIT on `keyed`, with a block written to DIN. -/
def ready (din : Quad) : State := { keyed with sponge := initSponge, phase := .ready, done := true, din := din }

/-- The same session with a block already absorbed in mode `m`. -/
def absorbing (m : Mode) (din : Quad) : State := { ready din with phase := .absorb, mode := m }

/-- "Hello, World!" in DIN (section 1). -/
def hello : Quad := ⟨0x6c6c6548, 0x57202c6f, 0x646c726f, 0x00000021⟩

/-- Its ciphertext (SV1). -/
def cipher : Quad := ⟨0x30658f60, 0x6bbfcdc6, 0xf41f3ad4, 0x000000e9⟩

/-- Its tag (SV1). -/
def helloTag : Quad := ⟨0x70c94777, 0x214b109e, 0x5b7a5168, 0x892ba3af⟩

/-- Bytes 00 to 0f in DIN. -/
def ramp : Quad := ⟨0x03020100, 0x07060504, 0x0b0a0908, 0x0f0e0d0c⟩

/-- A command in progress after `k` cycles of its window. -/
def during (i : Instr) (k : Nat) (s : State) : State := (s.accept i).atStep i k

/-- The state a result answers, or `s` where it answers none. -/
def after (s : State) (r : Result) : State := (nextState r).getD s

theorem eq_next {r : Result} {t : State} (h : nextState r = some t) : r = .next t := by
  cases r with
  | next u => cases h; rfl
  | fault e => cases h
  | refused e => cases h

/-! ### Which commands exist -/

theorem test_permute_is_ill_formed_without_debug :
    Instr.wellFormed { Params.everyRow with debug := false } .permute = false := by decide
theorem test_permute_is_well_formed_with_debug : Instr.wellFormed Params.everyRow .permute = true := by decide

/-! ### Decoding (section 2.8): each row's word written out from its encoding -/

theorem test_decode_init :
    decode Params.reference 0x00000001 = some (.init false) ∧ decode Params.reference 0x00010001 = some (.init true) := by
  decide
theorem test_decode_blocks :
    decode Params.reference 0x00000002 = some .encBlock ∧ decode Params.reference 0x00000004 = some .decBlock ∧
      decode Params.reference 0x00000006 = some .hashBlock := by decide
theorem test_decode_enc_final :
    decode Params.reference 0x00000003 = some (.encFinal 0) ∧ decode Params.reference 0x00000D03 = some (.encFinal 13) ∧
      decode Params.reference 0x00000F03 = some (.encFinal 15) := by decide
theorem test_decode_dec_final :
    decode Params.reference 0x00000005 = some (.decFinal 0) ∧
      decode Params.reference 0x00000F05 = some (.decFinal 15) := by decide
theorem test_decode_hash_final :
    decode Params.reference 0x00000007 = some (.hashFinal 0) ∧
      decode Params.reference 0x00000F07 = some (.hashFinal 15) := by decide
theorem test_decode_zeroize_and_permute :
    decode Params.reference 0x00000008 = some .zeroize ∧ decode Params.reference 0x00000009 = none ∧
      decode Params.everyRow 0x00000009 = some .permute := by decide
theorem test_decode_rejects_fields_on_the_wrong_command :
    [0x00000101, 0x00000D02, 0x00010002, 0x00010003, 0x00000108, 0x00010008, 0x00000109].all
      (fun w : Word => decode Params.everyRow w = none) = true := by decide
theorem test_decode_rejects_reserved_words :
    [0x00000000, 0x0000000A, 0x0000000F, 0x00000010, 0x00001003, 0x00020001, 0x80000001, 0xFFFFFFFF].all
      (fun w : Word => decode Params.everyRow w = none) = true := by decide
theorem test_decode_table_word :
    decodeTableWord 32 0x00000D05 = some (.decFinal 13) ∧ decodeTableWord 8 0x109 = some .permute := by decide

/-! ### Rotation and permutation (sections 2.1 and 2.2) -/

theorem test_rotr32 :
    rotr32 0x00000001 18 = 0x00004000 ∧ rotr32 0x80000000 31 = 0x00000001 ∧ rotr32 0x12345678 8 = 0x78123456 ∧
      rotr32 0xdeadbeef 21 = 0x6df77ef5 := by decide
theorem test_theta_one_bit :
    theta ⟨⟨1, 0, 0, 0⟩, Quad.zero, Quad.zero⟩ =
      ⟨⟨1, 0x4020, 0, 0⟩, ⟨0, 0x4020, 0, 0⟩, ⟨0, 0x4020, 0, 0⟩⟩ := by decide
theorem test_chi_corner_cases :
    chi ⟨⟨0xffffffff, 0, 0, 0⟩, Quad.zero, Quad.zero⟩ = ⟨⟨0xffffffff, 0, 0, 0⟩, ⟨0xffffffff, 0, 0, 0⟩, Quad.zero⟩ ∧
      chi ⟨Quad.zero, Quad.zero, ⟨1, 0, 0, 0⟩⟩ = ⟨⟨0x800, 0, 0, 0⟩, Quad.zero, ⟨0x80000, 0, 0, 0⟩⟩ := by decide
theorem test_round0_of_ramp :
    permRound 0 ⟨⟨0, 1, 2, 3⟩, ⟨4, 5, 6, 7⟩, ⟨8, 9, 10, 11⟩⟩ =
      ⟨⟨0x1e0f81b8, 0x180f0981, 0x1a0f11a2, 0x1c0f99c3⟩, ⟨0x000600fe, 0x000180ca, 0x0002004e, 0x000580ca⟩,
        ⟨0x0d50051a, 0x0e18241c, 0x0f40471e, 0x0c886418⟩⟩ := by decide +kernel
theorem test_permute_of_ones :
    permute ⟨⟨0xffffffff, 0xffffffff, 0xffffffff, 0xffffffff⟩, ⟨0xffffffff, 0xffffffff, 0xffffffff, 0xffffffff⟩,
        ⟨0xffffffff, 0xffffffff, 0xffffffff, 0xffffffff⟩⟩ =
      ⟨⟨0xacd84e64, 0x9d6192e6, 0xa04feb30, 0x5465f581⟩, ⟨0xa5e2e9d0, 0x677b8de1, 0x32a7ae36, 0xfe0abc54⟩,
        ⟨0x4147481f, 0xa6be9d10, 0x83c70daf, 0x832e2452⟩⟩ := by decide +kernel

/-! ### The commands (sections 2.3 to 2.7) -/

theorem test_init :
    (after keyed (exec (.init false) keyed)).sponge = initSponge ∧
      (after keyed (exec (.init false) keyed)).statusWord = 0x00000012 := by decide +kernel
theorem test_init_without_nonce :
    (after keyed (exec (.init true) keyed)).sponge.p0 = ⟨0xd067fbc5, 0x20aac2e3, 0x45f09695, 0x4d8bbb9a⟩ := by
  decide +kernel
theorem test_enc_block :
    (after keyed (exec .encBlock (ready ramp))).out.lo = ⟨0x5f0beb28, 0x3b99e4ad, 0x9b7941b3, 0xb2cf7bc4⟩ ∧
      (after keyed (exec .encBlock (ready ramp))).sponge.p2 = ⟨0x74c61799, 0xe4083554, 0xa0b3e383, 0x1a2cc7d3⟩ ∧
      (after keyed (exec .encBlock (ready ramp))).statusWord = 0x00000122 := by decide +kernel
theorem test_enc_final :
    (after keyed (exec (.encFinal 13) (ready { hello with w3 := 0xffffff21 }))).out = ⟨cipher, helloTag⟩ ∧
      (after keyed (exec (.encFinal 13) (ready { hello with w3 := 0xffffff21 }))).statusWord = 0x00000132 := by
  decide +kernel
theorem test_enc_final_of_nothing :
    (after keyed (exec (.encFinal 0) (ready Quad.zero))).out =
      ⟨Quad.zero, ⟨0x854192c0, 0xdd191076, 0x8536f3b6, 0xfcfdece3⟩⟩ := by decide +kernel
theorem test_dec_block :
    (after keyed (exec .decBlock (ready ⟨0x5f0beb28, 0x3b99e4ad, 0x9b7941b3, 0xb2cf7bc4⟩))).out = ⟨ramp, Quad.zero⟩ ∧
      (after keyed (exec .decBlock (ready ⟨0x5f0beb28, 0x3b99e4ad, 0x9b7941b3, 0xb2cf7bc4⟩))).statusWord = 0x00000222 := by
  decide +kernel
theorem test_dec_final :
    (after keyed (exec (.decFinal 13) { ready cipher with tagin := helloTag })).out = ⟨hello, Quad.zero⟩ ∧
      (after keyed (exec (.decFinal 13) { ready cipher with tagin := helloTag })).statusWord = 0x0000023A := by
  decide +kernel
theorem test_dec_final_of_one_flipped_bit :
    (after keyed (exec (.decFinal 13) { ready cipher with tagin := { helloTag with w3 := 0x092ba3af } })).out = Oct.zero ∧
      (after keyed (exec (.decFinal 13)
        { ready cipher with tagin := { helloTag with w3 := 0x092ba3af } })).statusWord = 0x00000236 ∧
      (after keyed (exec (.decFinal 13)
        { ready cipher with tagin := { helloTag with w3 := 0x092ba3af } })).errCodeWord = 4 := by decide +kernel
theorem test_hash_block :
    (after keyed (exec .hashBlock (ready ramp))).sponge.p0 = ⟨0x9fe4e003, 0xb99e2ed3, 0x8d0bf52c, 0xce2958a4⟩ ∧
      (after keyed (exec .hashBlock (ready ramp))).out = Oct.zero ∧
      (after keyed (exec .hashBlock (ready ramp))).statusWord = 0x00000322 := by decide +kernel
theorem test_hash_final :
    (after keyed (exec (.hashFinal 13) (ready hello))).out =
      ⟨⟨0x4fdef34b, 0xa39591a0, 0xe5407d1d, 0xab6d1599⟩, ⟨0x9bc41fb8, 0x6e877be3, 0xc21a5423, 0x68a63f34⟩⟩ ∧
      (after keyed (exec (.hashFinal 13) (ready hello))).statusWord = 0x00000332 := by decide +kernel
theorem test_zeroize :
    after keyed (exec .zeroize { ready hello with tagin := helloTag }) = { State.reset with done := true } := by
  decide +kernel
theorem test_permute :
    (after keyed (exec .permute debugReset)).sponge.p0 = ⟨0x89d5d88d, 0xa963fcbf, 0x1b232d19, 0xffa5a014⟩ ∧
      (after keyed (exec .permute debugReset)).statusWord = 0x00000402 := by decide +kernel
theorem test_permute_is_absent_without_debug :
    (after keyed (exec .permute State.reset)).statusWord = 0x00000004 ∧
      (after keyed (exec .permute State.reset)).errCodeWord = 1 := by decide +kernel

/-! ### Errors and sequencing (section 2.9) -/

theorem test_block_in_idle :
    (busAccess (Cycle.write 0x04 0x00000002) State.reset).statusWord = 0x00000004 ∧
      (busAccess (Cycle.write 0x04 0x00000002) State.reset).errCodeWord = 2 := by decide +kernel
theorem test_mode_is_locked :
    (busAccess (Cycle.write 0x04 0x00000004) (absorbing .enc Quad.zero)).statusWord = 0x00000126 := by decide +kernel
theorem test_write_while_busy :
    (busAccess (Cycle.write 0x50 0x00001234) (during .encBlock 0 (ready Quad.zero))).statusWord = 0x00000015 ∧
      (busAccess (Cycle.write 0x04 0x0000000A) (during .encBlock 0 (ready Quad.zero))).errCodeWord = 3 := by
  decide +kernel
theorem test_encoding_is_checked_before_phase :
    (busAccess (Cycle.write 0x04 0x00000D02) State.reset).errCodeWord = 1 := by decide +kernel
theorem test_refused_reads :
    [0x02, 0x14, 0xC0].all (fun a : BitVec 8 =>
      portOut (Cycle.read a) State.reset = ⟨some 0, true⟩ ∧
        (busAccess (Cycle.read a) State.reset).errCodeWord = 5) = true := by decide +kernel
theorem test_misaligned_write :
    busAccess (Cycle.write 0x51 5) State.reset = { State.reset with err := true, errCode := .addrErr } := by
  decide +kernel
theorem test_clear_done :
    (busAccess (Cycle.write 0x08 0x00000002) (ready Quad.zero)).statusWord = 0x00000010 ∧
      { ready Quad.zero with doneIe := true, errIe := true }.irq = true ∧
      (busAccess (Cycle.write 0x08 0x00000002) { ready Quad.zero with doneIe := true, errIe := true }).irq = false := by
  decide +kernel
theorem test_read_only_writes :
    busAccess (Cycle.write 0x00 5) (ready Quad.zero) = ready Quad.zero ∧
      busAccess (Cycle.write 0x80 5) (ready Quad.zero) = ready Quad.zero := by decide +kernel
theorem test_host_program_cycles :
    hostCycles [.wr (.key 7) 0x01010101, .rd (.stateWord 11), .cmd (.decFinal 1), .wait 1] =
      [Cycle.write 0x3C 0x01010101, Cycle.read 0xEC, Cycle.write 0x04 0x00000105, Cycle.read 0x08] := by
  decide +kernel
theorem test_window_offset_top :
    windowOffset { Params.reference with platformBase := 0x1000 } 0x10FF = some 0xFF ∧
      windowOffset { Params.reference with platformBase := 0x1000 } 0x1100 = none := by decide +kernel

/-! ### The step, and the first instruction after reset -/

theorem test_step_writes_a_key_word :
    after keyed (step { keyed with host := [Cycle.write 0x3C 5] }) =
      { keyed with key := { keyed.key with hi := { keyed.key.hi with w3 := 5 } }, port := ⟨none, false⟩ } := by
  decide +kernel
theorem test_step_presents_init :
    after keyed (step { keyed with host := [Cycle.write 0x04 0x00000001] }) =
      { keyed with cmd := some (.init false), port := ⟨none, false⟩ } := by decide +kernel
theorem test_placed_word_runs_first :
    (after keyed (step (State.reset.withFetchWord 32 0x00000001))).sponge.p0 =
        ⟨0x89d5d88d, 0xa963fcbf, 0x1b232d19, 0xffa5a014⟩ ∧
      (after keyed (step (State.reset.withFetchWord 32 0x00000002))).errCode = .seqErr := by decide +kernel
theorem test_window_of_zeroize_is_one_cycle :
    (after keyed (runFor 1 { keyed with host := [Cycle.write 0x04 0x00000008] })).busy = true ∧
      (after keyed (runFor 2 { keyed with host := [Cycle.write 0x04 0x00000008] })).statusWord = 0x00000002 := by
  decide +kernel

/-! ### Witnesses: encoding, words and bytes, permutation

Each theorem below shows concrete values that meet all hypotheses of the statement in its name together. A statement
with no hypothesis has none. -/

theorem witness_DecodeInvertsEncode :
    Instr.wellFormed Params.everyRow (.encFinal 15) = true ∧ Instr.wellFormed Params.everyRow .permute = true ∧
      Instr.wellFormed Params.reference (.init true) = true := by decide
theorem witness_DecodedWordIsEncoding :
    decode Params.everyRow 0x00010001 = some (.init true) ∧ decode Params.everyRow 0x00000F07 = some (.hashFinal 15) := by
  decide
theorem witness_IllegalWordsRaiseIllegalCmd :
    State.reset.cmd = none ∧ [0x00000010, 0x00000000, 0x0000000A, 0x00000009, 0x00000D02, 0x00010002].all
      (fun w : Word => decode State.reset.params w = none) = true := by decide
theorem witness_RotateRightMovesBits : 0 < 1 ∧ 1 < 32 ∧ 0 < 31 ∧ 31 < 32 := by decide
theorem witness_RateIsLittleEndian : 4 ≤ (4 : Fin 12).val ∧ 4 ≤ (11 : Fin 12).val := by decide
theorem witness_TailBytesAreIgnored :
    (ready hello).cmd = none ∧ (ready hello).phase = .ready ∧
      legalCommand (.encFinal 13) (ready hello).phase (ready hello).mode = true ∧
      legalCommand (.decFinal 0) (absorbing .dec hello).phase (absorbing .dec hello).mode = true ∧
      legalCommand (.hashFinal 15) (absorbing .hash hello).phase (absorbing .hash hello).mode = true := by decide
theorem witness_ShiftsAndConstantMoveTheNamedWords : (1 : Fin 12) ≠ 0 ∧ (11 : Fin 12) ≠ 0 := by decide

/-! ### Witnesses: what each command does -/

theorem witness_InitLoadsHeaderAndPermutes : keyed.cmd = none := rfl
theorem witness_InitRestartsTheSameSession :
    keyed.cmd = none ∧ (absorbing .enc ramp).cmd = none ∧ keyed.key = (absorbing .enc ramp).key ∧
      keyed.nonce = (absorbing .enc ramp).nonce := by decide
theorem witness_EncBlockEmitsAndAbsorbs :
    (ready ramp).cmd = none ∧ (ready ramp).phase = .ready ∧ (absorbing .enc ramp).cmd = none ∧
      (absorbing .enc ramp).phase = .absorb ∧ (absorbing .enc ramp).mode = .enc := by decide
theorem witness_EncFinalEmitsCiphertextAndTag :
    (ready hello).cmd = none ∧ (ready hello).phase = .ready ∧ (absorbing .enc hello).cmd = none ∧
      (absorbing .enc hello).phase = .absorb ∧ (absorbing .enc hello).mode = .enc := by decide
theorem witness_DecBlockRecoversAndAbsorbs :
    (ready ramp).cmd = none ∧ (ready ramp).phase = .ready ∧ (absorbing .dec ramp).cmd = none ∧
      (absorbing .dec ramp).phase = .absorb ∧ (absorbing .dec ramp).mode = .dec := by decide
theorem witness_DecFinalReleasesPlaintextOnMatch_ready :
    (ready cipher).cmd = none ∧ (ready cipher).phase = .ready ∧
      helloTag = (permute (finalInput 0x05000000 cipher.byte 13 initSponge)).p0 := by decide +kernel
theorem witness_DecFinalReleasesPlaintextOnMatch_absorb :
    (absorbing .dec cipher).cmd = none ∧ (absorbing .dec cipher).phase = .absorb ∧ (absorbing .dec cipher).mode = .dec ∧
      { absorbing .dec cipher with tagin := helloTag }.tagin =
        (permute (finalInput 0x05000000 (absorbing .dec cipher).din.byte 13 (absorbing .dec cipher).sponge)).p0 := by
  decide +kernel
theorem witness_DecFinalZeroesOutputOnMismatch_ready :
    (ready cipher).cmd = none ∧ (ready cipher).phase = .ready ∧
      (ready cipher).tagin ≠ (permute (finalInput 0x05000000 (ready cipher).din.byte 15 (ready cipher).sponge)).p0 := by
  decide +kernel
theorem witness_DecFinalZeroesOutputOnMismatch_absorb :
    (absorbing .dec cipher).cmd = none ∧ (absorbing .dec cipher).phase = .absorb ∧ (absorbing .dec cipher).mode = .dec ∧
      (absorbing .dec cipher).tagin ≠
        (permute (finalInput 0x05000000 (absorbing .dec cipher).din.byte 0 (absorbing .dec cipher).sponge)).p0 := by
  decide +kernel
theorem witness_HashBlockAbsorbsOnly :
    (ready ramp).cmd = none ∧ (ready ramp).phase = .ready ∧ (absorbing .hash ramp).cmd = none ∧
      (absorbing .hash ramp).phase = .absorb ∧ (absorbing .hash ramp).mode = .hash := by decide
theorem witness_HashFinalSqueezesTwice :
    (ready hello).cmd = none ∧ (ready hello).phase = .ready ∧ (absorbing .hash hello).cmd = none ∧
      (absorbing .hash hello).phase = .absorb ∧ (absorbing .hash hello).mode = .hash := by decide
theorem witness_ZeroizeClearsSecrets : (absorbing .enc ramp).cmd = none := rfl
theorem witness_PermuteRunsOnlyWithDebug :
    debugReset.cmd = none ∧ debugReset.params.debug = true ∧ (ready ramp).cmd = none ∧
      (ready ramp).params.debug = false := by decide

/-! ### Witnesses: where a command is turned away -/

theorem witness_OutOfSequenceRaisesSeqErr :
    State.reset.cmd = none ∧ sessionMode .encBlock = some .enc ∧ State.reset.phase = .idle ∧
      decode State.reset.params 0x00000002 = some .encBlock ∧
      (absorbing .enc ramp).cmd = none ∧ sessionMode (.decFinal 15) = some .dec ∧
      (absorbing .enc ramp).phase = .absorb ∧ (absorbing .enc ramp).mode ≠ .dec ∧
      decode (absorbing .enc ramp).params 0x00000F05 = some (.decFinal 15) ∧
      { absorbing .hash ramp with phase := .finalized }.phase = .finalized ∧ sessionMode .hashBlock = some .hash ∧
      decode (absorbing .hash ramp).params 0x00000006 = some .hashBlock := by decide
theorem witness_BusyDropsGuardedWrites :
    (during (.init true) 0 debugReset).cmd = some (.init true) ∧
      regAt (during (.init true) 0 debugReset).params 0x04 = some .cmd ∧
      regAt (during (.init true) 0 debugReset).params 0x3C = some (.key 7) ∧
      regAt (during (.init true) 0 debugReset).params 0x40 = some (.nonce 0) ∧
      regAt (during (.init true) 0 debugReset).params 0x5C = some (.din 3) ∧
      regAt (during (.init true) 0 debugReset).params 0x60 = some (.tagin 0) ∧
      regAt (during (.init true) 0 debugReset).params 0xEC = some (.stateWord 11) ∧
      regAt (during (.init true) 0 debugReset).params 0x08 = some .status ∧
      regAt (during (.init true) 0 debugReset).params 0x10 = some .irqEn ∧
      regAt (during (.init true) 0 debugReset).params 0x00 = some .id ∧
      regAt (during (.init true) 0 debugReset).params 0x0C = some .errCode ∧
      regAt (during (.init true) 0 debugReset).params 0x9C = some (.out 7) := by decide +kernel

/-! ### Witnesses: the register window -/

theorem witness_AddressMapIsExact :
    regAt Params.everyRow 0x20 = some (.key 0) ∧ regAt Params.everyRow 0xC0 = some (.stateWord 0) ∧
      regAt Params.reference 0xC0 = none ∧ regAt Params.everyRow 0xF0 = none := by decide +kernel
theorem witness_RefusedAccessRaisesAddrErr :
    [0x01, 0x14, 0x1F, 0x70, 0x7C, 0xA0, 0xBC, 0xC0, 0xEC, 0xF0, 0xFF].all (fun a : BitVec 8 =>
      (Cycle.read a).req = true ∧ (Cycle.read a).rst = false ∧ State.reset.params.debug = false ∧
      (a.toNat % 4 ≠ 0 ∨ (0x14 ≤ a.toNat ∧ a.toNat ≤ 0x1F) ∨ (0x70 ≤ a.toNat ∧ a.toNat ≤ 0x7F) ∨
        (0xA0 ≤ a.toNat ∧ a.toNat ≤ 0xBF) ∨ 0xF0 ≤ a.toNat ∨ (0xC0 ≤ a.toNat ∧ a.toNat ≤ 0xEF))) = true := by
  decide +kernel
theorem witness_ReadsReturnTheRegister :
    regAt (ready ramp).params 0x00 = some .id ∧ regAt (ready ramp).params 0x04 = some .cmd ∧
      regAt (ready ramp).params 0x08 = some .status ∧ regAt (ready ramp).params 0x0C = some .errCode ∧
      regAt (ready ramp).params 0x10 = some .irqEn ∧ regAt (ready ramp).params 0x20 = some (.key 0) ∧
      regAt (ready ramp).params 0x4C = some (.nonce 3) ∧ regAt (ready ramp).params 0x50 = some (.din 0) ∧
      regAt (ready ramp).params 0x6C = some (.tagin 3) ∧ regAt (ready ramp).params 0x80 = some (.out 0) ∧
      regAt debugReset.params 0xC0 = some (.stateWord 0) ∧ (ready ramp).cmd = none ∧ debugReset.cmd = none ∧
      (during .permute 11 debugReset).cmd ≠ none ∧
      regAt (during .permute 11 debugReset).params 0xEC = some (.stateWord 11) ∧
      regAt (during .permute 11 debugReset).params 0x9C = some (.out 7) := by decide +kernel
theorem witness_StatusFieldsAndReservedBits : 11 ≤ 11 ∧ 11 ≤ 31 := by decide
theorem witness_InputWritesSetOneWord :
    debugReset.cmd = none ∧ debugReset.params.debug = true ∧ (6 : Fin 8) ≠ 7 ∧ (0 : Fin 4) ≠ 3 ∧
      (10 : Fin 12) ≠ 11 := by decide
theorem witness_StatusWriteClearsAndSetWins_done :
    (during .zeroize 0 keyed).cmd = some .zeroize ∧ Instr.wellFormed (during .zeroize 0 keyed).params .zeroize = true ∧
      legalCommand .zeroize (during .zeroize 0 keyed).phase (during .zeroize 0 keyed).mode = true ∧
      latency (during .zeroize 0 keyed).params .zeroize ≤ (during .zeroize 0 keyed).seqStep + 1 ∧
      clockEdge (Cycle.write 0x08 0x2) (during .zeroize 0 keyed) =
        .next (after keyed (clockEdge (Cycle.write 0x08 0x2) (during .zeroize 0 keyed))) := by
  refine ⟨rfl, rfl, rfl, by decide, eq_next (by decide +kernel)⟩

/-- DEC_FINAL with the wrong tag, at the last cycle of its window. -/
def failing : State := during (.decFinal 13) 24 (ready cipher)

theorem witness_failing :
    failing.cmd = some (.decFinal 13) ∧ legalCommand (.decFinal 13) failing.phase failing.mode = true ∧
      latency failing.params (.decFinal 13) ≤ failing.seqStep + 1 ∧
      failing.tagin ≠ (permute (finalInput 0x05000000 failing.din.byte 13 failing.sponge)).p0 := by
  refine ⟨rfl, rfl, by decide, by decide +kernel⟩
theorem witness_StatusWriteClearsAndSetWins_err :
    clockEdge (Cycle.write 0x08 0x4) failing = .next (after failing (clockEdge (Cycle.write 0x08 0x4) failing)) :=
  eq_next (by decide +kernel)

/-! ### Witnesses: one step, and the BUSY window -/

theorem witness_StepPresentsCommandWord :
    keyed.cmd = none ∧ decode keyed.params 0x00000008 = some .zeroize ∧
      legalCommand .zeroize keyed.phase keyed.mode = true ∧ decode keyed.params 0x00000000 = none ∧
      decode keyed.params 0x00000F07 = some (.hashFinal 15) ∧
      legalCommand (.hashFinal 15) keyed.phase keyed.mode = false ∧
      { keyed with host := [Cycle.write 0x04 0x00000008] }.host = Cycle.write 0x04 0x00000008 :: [] := by decide
theorem witness_StepPresentsCommandWord_access :
    keyed.cmd = none ∧ keyed.host = [] ∧ { keyed with host := [Cycle.write 0x3C 1] }.host = Cycle.write 0x3C 1 :: [] ∧
      (Cycle.write 0x3C 1).rst = false ∧
      { keyed with host := [Cycle.reset, Cycle.idle] }.host = Cycle.reset :: [Cycle.idle] := by decide
theorem witness_StepRunsLatchedInstruction_window :
    (during (.decFinal 13) 23 (ready cipher)).cmd = some (.decFinal 13) ∧
      (during (.decFinal 13) 23 (ready cipher)).seqStep + 1 <
        latency (during (.decFinal 13) 23 (ready cipher)).params (.decFinal 13) ∧
      (during (.decFinal 13) 23 (ready cipher)).host = [] ∧
      { during (.decFinal 13) 0 (ready cipher) with host := [Cycle.write 0x10 3] }.host = Cycle.write 0x10 3 :: [] ∧
      (Cycle.write 0x10 3).rst = false ∧
      { during (.decFinal 13) 0 (ready cipher) with host := [Cycle.write 0x10 3] }.seqStep + 1 <
        latency { during (.decFinal 13) 0 (ready cipher) with host := [Cycle.write 0x10 3] }.params (.decFinal 13) := by
  decide
theorem witness_StepRunsLatchedInstruction :
    failing.cmd = some (.decFinal 13) ∧ latency failing.params (.decFinal 13) ≤ failing.seqStep + 1 ∧
      failing.host = [] ∧ { failing with host := [Cycle.write 0x3D 1] }.host = Cycle.write 0x3D 1 :: [] ∧
      (Cycle.write 0x3D 1).rst = false := by decide
theorem witness_StepRunsPlacedWord :
    decode State.reset.params (tableWord 32 0x00010001) = some (.init true) ∧
      legalCommand (.init true) State.reset.phase State.reset.mode = true := by decide

/-- An implementation with one cycle for a permutation, about to run INIT while the host writes STATUS and KEY0. -/
def oneCycle : State :=
  { State.resetWith { Params.reference with permCycles := 1 } with
    host := [Cycle.write 0x04 0x00000001, Cycle.write 0x08 0x6, Cycle.write 0x20 0xFF] }

theorem witness_BusyWindowLastsTheLatency :
    oneCycle.params.wf = true ∧ oneCycle.cmd = none ∧ decode oneCycle.params 0x00000001 = some (.init false) ∧
      legalCommand (.init false) oneCycle.phase oneCycle.mode = true ∧
      oneCycle.host = Cycle.write 0x04 0x00000001 :: [Cycle.write 0x08 0x6, Cycle.write 0x20 0xFF] ∧
      ([Cycle.write 0x08 0x6, Cycle.write 0x20 0xFF].all fun c => c.rst = false) = true ∧
      latency oneCycle.params (.init false) = 2 := by decide
theorem witness_BusyWindowLastsTheLatency_runs :
    runFor 1 oneCycle = .next (after oneCycle (runFor 1 oneCycle)) ∧
      runFor 2 oneCycle = .next (after oneCycle (runFor 2 oneCycle)) ∧
      runFor 3 oneCycle = .next (after oneCycle (runFor 3 oneCycle)) :=
  ⟨eq_next (by decide +kernel), eq_next (by decide +kernel), eq_next (by decide +kernel)⟩
theorem witness_WindowIsAtomic :
    exec (.init false) oneCycle = .next (after oneCycle (exec (.init false) oneCycle)) ∧
      (after oneCycle (runFor 3 oneCycle)).outcome = (after oneCycle (exec (.init false) oneCycle)).outcome :=
  ⟨eq_next (by decide +kernel), by decide +kernel⟩
theorem witness_CompletionCycleOrder_dropped :
    clockEdge (Cycle.write 0x04 0x00000008) failing =
      .next (after failing (clockEdge (Cycle.write 0x04 0x00000008) failing)) := eq_next (by decide +kernel)
theorem witness_CompletionCycleOrder_failing :
    (Cycle.read 0xF0).rst = false ∧
      clockEdge (Cycle.read 0xF0) failing = .next (after failing (clockEdge (Cycle.read 0xF0) failing)) ∧
      (after failing (clockEdge (Cycle.read 0xF0) failing)).errCode = .addrErr :=
  ⟨rfl, eq_next (by decide +kernel), by decide +kernel⟩

/-! ### Witnesses: reset, and rules about the whole machine -/

theorem witness_ResetClearsEverything :
    Cycle.reset.rst = true ∧ { Cycle.read 0x08 with rst := true }.rst = true ∧
      { Cycle.read 0x08 with rst := true }.req = true ∧ { Cycle.read 0x08 with rst := true }.we = false := by decide
theorem witness_AfterResetOnlySessionStarts :
    decode Params.everyRow 0x00000009 = some .permute ∧ decode Params.everyRow 0x00010001 = some (.init true) ∧
      decode Params.everyRow 0x00000008 = some .zeroize ∧ decode Params.everyRow 0x00000F05 = some (.decFinal 15) := by
  decide
theorem witness_InvariantHoldsAtReset : Params.reference.wf = true ∧ oneCycle.params.wf = true := by decide
theorem witness_StepKeepsInvariant_idle :
    (ready ramp).Inv ∧ step (ready ramp) = .next (after (ready ramp) (step (ready ramp))) := by
  refine ⟨⟨rfl, by simp [State.modeFits, ready, keyed, State.reset, State.resetWith],
    by simp [State.errFits, ready, keyed, State.reset, State.resetWith],
    by simp [State.tagFits, ready, keyed, State.reset, State.resetWith],
    by simp [State.idleClean, ready], ⟨rfl, rfl, rfl⟩⟩, eq_next (by decide +kernel)⟩
theorem witness_StepKeepsInvariant_busy :
    failing.Inv ∧ step failing = .next (after failing (step failing)) := by
  refine ⟨⟨rfl, by simp [State.modeFits, failing, during, ready, keyed, State.reset, State.resetWith],
    by simp [State.errFits, failing, during, ready, keyed, State.reset, State.resetWith],
    by simp [State.tagFits, failing, during],
    by simp [State.idleClean, failing, during, ready],
    ⟨rfl, rfl, by decide, rfl, rfl, rfl, rfl, rfl⟩⟩, eq_next (by decide +kernel)⟩
theorem witness_SpongeHasThreeWriters :
    step { ready ramp with host := [Cycle.reset] } =
        .next (after keyed (step { ready ramp with host := [Cycle.reset] })) ∧
      (after keyed (step { ready ramp with host := [Cycle.reset] })).sponge ≠ (ready ramp).sponge ∧
      step failing = .next (after keyed (step failing)) ∧ (after keyed (step failing)).sponge ≠ failing.sponge ∧
      step { debugReset with host := [Cycle.write 0xEC 1] } =
        .next (after keyed (step { debugReset with host := [Cycle.write 0xEC 1] })) ∧
      (after keyed (step { debugReset with host := [Cycle.write 0xEC 1] })).sponge ≠ debugReset.sponge :=
  ⟨eq_next (by decide +kernel), by decide +kernel, eq_next (by decide +kernel), by decide +kernel,
    eq_next (by decide +kernel), by decide +kernel⟩
theorem witness_KeyAndNonceAreKept :
    step { keyed with host := [Cycle.write 0x3C 1] } = .next (after keyed (step { keyed with host := [Cycle.write 0x3C 1] })) ∧
      (after keyed (step { keyed with host := [Cycle.write 0x3C 1] })).key ≠ keyed.key ∧
      step { keyed with host := [Cycle.write 0x4C 1] } =
        .next (after keyed (step { keyed with host := [Cycle.write 0x4C 1] })) ∧
      (after keyed (step { keyed with host := [Cycle.write 0x4C 1] })).nonce ≠ keyed.nonce ∧
      step (during .zeroize 0 keyed) = .next (after keyed (step (during .zeroize 0 keyed))) ∧
      (after keyed (step (during .zeroize 0 keyed))).key ≠ keyed.key ∧
      (after keyed (step (during .zeroize 0 keyed))).nonce ≠ keyed.nonce :=
  ⟨eq_next (by decide +kernel), by decide +kernel, eq_next (by decide +kernel), by decide +kernel,
    eq_next (by decide +kernel), by decide +kernel, by decide +kernel⟩
theorem witness_OnlyInitReadsKeyAndNonce :
    failing.cmd = some (.decFinal 13) ∧ step failing = .next (after failing (step failing)) ∧
      (during (.init true) 12 keyed).cmd = some (.init true) ∧
      step (during (.init true) 12 keyed) = .next (after keyed (step (during (.init true) 12 keyed))) :=
  ⟨rfl, eq_next (by decide +kernel), rfl, eq_next (by decide +kernel)⟩
theorem witness_DoneAndErrAreSticky :
    step { ready ramp with host := [Cycle.write 0x08 0x2] } =
        .next (after keyed (step { ready ramp with host := [Cycle.write 0x08 0x2] })) ∧
      (ready ramp).done = true ∧ (after keyed (step { ready ramp with host := [Cycle.write 0x08 0x2] })).done = false ∧
      step { ready ramp with host := [Cycle.write 0x04 0x2] } =
        .next (after keyed (step { ready ramp with host := [Cycle.write 0x04 0x2] })) ∧
      (after keyed (step { ready ramp with host := [Cycle.write 0x04 0x2] })).done = false ∧
      step { keyed with err := true, errCode := .seqErr, host := [Cycle.write 0x08 0x4] } =
        .next (after keyed (step { keyed with err := true, errCode := .seqErr, host := [Cycle.write 0x08 0x4] })) ∧
      (after keyed (step { keyed with err := true, errCode := .seqErr, host := [Cycle.write 0x08 0x4] })).err = false :=
  ⟨eq_next (by decide +kernel), by decide +kernel, by decide +kernel, eq_next (by decide +kernel), by decide +kernel,
    eq_next (by decide +kernel), by decide +kernel⟩
theorem witness_PhaseFollowsTheTable :
    step { ready ramp with host := [Cycle.reset] } =
        .next (after keyed (step { ready ramp with host := [Cycle.reset] })) ∧
      (after keyed (step { ready ramp with host := [Cycle.reset] })).phase ≠ (ready ramp).phase ∧
      step failing = .next (after keyed (step failing)) ∧
      ((after keyed (step failing)).phase, (after keyed (step failing)).mode) ≠ (failing.phase, failing.mode) :=
  ⟨eq_next (by decide +kernel), by decide +kernel, eq_next (by decide +kernel), by decide +kernel⟩
theorem witness_ParametersNeverChange : step debugReset = .next (after debugReset (step debugReset)) :=
  eq_next (by decide +kernel)
theorem witness_ExecLeavesTheRestAlone_accepted :
    exec .encBlock (ready ramp) = .next (after keyed (exec .encBlock (ready ramp))) ∧
      (ready ramp).checkInstr .encBlock = none ∧ Instr.encBlock ≠ .zeroize ∧
      ([0, 15].all fun len : BitVec 4 => Instr.encBlock ≠ .decFinal len) = true :=
  ⟨eq_next (by decide +kernel), by decide, by decide, by decide⟩
theorem witness_ExecLeavesTheRestAlone_rejected :
    exec .encBlock keyed = .next (after keyed (exec .encBlock keyed)) ∧ keyed.checkInstr .encBlock ≠ none :=
  ⟨eq_next (by decide +kernel), by decide⟩
theorem witness_TimingIgnoresData :
    sameControl oneCycle { oneCycle with key := ⟨ramp, hello⟩, sponge := initSponge, tagin := helloTag } ∧
      runFor 3 oneCycle = .next (after oneCycle (runFor 3 oneCycle)) ∧
      runFor 3 { oneCycle with key := ⟨ramp, hello⟩, sponge := initSponge, tagin := helloTag } =
        .next (after oneCycle
          (runFor 3 { oneCycle with key := ⟨ramp, hello⟩, sponge := initSponge, tagin := helloTag })) :=
  ⟨⟨rfl, rfl, rfl, rfl, rfl, rfl⟩, eq_next (by decide +kernel), eq_next (by decide +kernel)⟩
theorem witness_OutputsHideSensitiveRegisters :
    sameVisible keyed { keyed with key := ⟨ramp, hello⟩, din := cipher, sponge := initSponge } ∧
      sameVisible debugReset { debugReset with tagin := helloTag, nonce := ramp } :=
  ⟨⟨rfl, rfl, rfl, rfl, rfl, rfl, rfl, rfl, rfl, rfl, rfl, by decide⟩,
    ⟨rfl, rfl, rfl, rfl, rfl, rfl, rfl, rfl, rfl, rfl, rfl, fun _ => rfl⟩⟩

/-! ### Witnesses: whole messages -/

theorem witness_FullBlocksChangeSAlike :
    (absorbing .enc ramp).cmd = none ∧ (absorbing .hash hello).cmd = none ∧ (ready cipher).cmd = none ∧
      legalCommand .encBlock (absorbing .enc ramp).phase (absorbing .enc ramp).mode = true ∧
      legalCommand .hashBlock (absorbing .hash hello).phase (absorbing .hash hello).mode = true ∧
      legalCommand .decBlock (ready cipher).phase (ready cipher).mode = true ∧
      (absorbing .hash hello).sponge = (absorbing .enc ramp).sponge ∧
      (ready cipher).sponge = (absorbing .enc ramp).sponge := by decide
theorem witness_DecryptInvertsEncrypt :
    keyed.cmd = none ∧ (absorbing .hash ramp).cmd = none ∧ keyed.key = (absorbing .hash ramp).key ∧
      keyed.nonce = (absorbing .hash ramp).nonce := by decide
theorem witness_AlteredTagIsRejected :
    exec (.init false) keyed = .next (after keyed (exec (.init false) keyed)) ∧
      (encryptMessage [] hello 13 (after keyed (exec (.init false) keyed))).map Sealed.tag = some helloTag ∧
      { helloTag with w0 := 0x70c94776 } ≠ helloTag :=
  ⟨eq_next (by decide +kernel), by decide +kernel, by decide⟩
theorem witness_HashIsDeterministic :
    keyed.cmd = none ∧ (absorbing .enc ramp).cmd = none ∧ keyed.key = (absorbing .enc ramp).key ∧
      keyed.nonce = (absorbing .enc ramp).nonce := by decide

end Sys2Proof.Tests
end

/-! The right rotation of spec/00_scope.md R8. -/

namespace Sys2Proof.Machine

/-- A right rotation by n is a left rotation by 32 − n (spec/00_scope.md R8): the two shifts are the same, in the other
order. The bounds on n keep 32 − n below 32, where the library's count modulo 32 is the count itself. -/
theorem rotr32_eq_rotateLeft (x : Word) (n : Nat) (h0 : 0 < n) (hn : n < 32) :
    rotr32 x n = x.rotateLeft (32 - n) := by
  have hmod : (32 - n) % 32 = 32 - n := Nat.mod_eq_of_lt (by omega)
  have hsub : 32 - (32 - n) = n := by omega
  calc rotr32 x n
      _ = x <<< (32 - n) ||| x >>> n := BitVec.or_comm ..
      _ = x.rotateLeft (32 - n) := by rw [BitVec.rotateLeft_def, hmod, hsub]

/-- Settles O6: the formula is the definition of `rotr32`, its bits are `rotr32_getLsbD`, and as a left rotation it is
`rotr32_eq_rotateLeft`. -/
theorem rotateRightMovesBits : Obligations.RotateRightMovesBits := by
  intro x n h0 hn
  exact ⟨rfl, rotr32_getLsbD x n hn, rotr32_eq_rotateLeft x n h0 hn⟩

end Sys2Proof.Machine

/-! What a command's pseudocode does to the flags, the phase machine, KEY and NONCE, for every command at once. -/

namespace Sys2Proof.Machine

/-- A decoded command exists in the implementation: PERMUTE's OP is ILLEGAL without P_DEBUG (spec/30_encoding.md R96,
spec/40_permutation.md R131). -/
theorem wellFormed_of_decode {p : Params} {v : Word} {i : Instr} (h : decode p v = some i) :
    i.wellFormed p = true := by
  cases i with
  | permute =>
    unfold decode at h
    split_ifs at h with _ _ hdebug
    have hop : opField v = 0x9 := by
      unfold ofFields at h
      split at h <;> cases h
      rename_i hop
      exact BitVec.eq_of_toNat_eq hop
    simpa [Instr.wellFormed, hop] using hdebug
  | _ => rfl

/-- What DEC_FINAL does whatever the tag (spec/43_decrypt.md R201). -/
theorem decFinalEffect_frame (len : BitVec 4) (s : State) :
    (decFinalEffect len s).key = s.key ∧ (decFinalEffect len s).nonce = s.nonce ∧
      (decFinalEffect len s).phase = .finalized ∧ (decFinalEffect len s).mode = .dec := by
  by_cases h : s.tagin = rate (permute (decFinalAbsorb len s.din s.sponge))
  · rw [decFinalEffect_of_match h]; exact ⟨rfl, rfl, rfl, rfl⟩
  · rw [decFinalEffect_of_mismatch h]; exact ⟨rfl, rfl, rfl, rfl⟩

/-- DEC_FINAL either finds the tag right, leaving OUT4..7 zero and ERR alone, or raises TAG_FAIL (R201). -/
theorem decFinalEffect_cases (len : BitVec 4) (s : State) :
    ((decFinalEffect len s).out.hi = Quad.zero ∧ (decFinalEffect len s).err = s.err ∧
      (decFinalEffect len s).errCode = s.errCode) ∨
    ((decFinalEffect len s).tagOk = false ∧ (decFinalEffect len s).err = true ∧
      (decFinalEffect len s).errCode = .tagFail) := by
  by_cases h : s.tagin = rate (permute (decFinalAbsorb len s.din s.sponge))
  · rw [decFinalEffect_of_match h]; exact .inl ⟨rfl, rfl, rfl⟩
  · rw [decFinalEffect_of_mismatch h]; exact .inr ⟨rfl, rfl, rfl⟩

/-- A command moves PHASE and MODE as its row of the table says (spec/41_session.md R155). -/
theorem commandEffect_phase_mode (i : Instr) (s : State) :
    ((commandEffect i s).phase, (commandEffect i s).mode) = phaseAfter i s.phase s.mode := by
  cases i with
  | decFinal len =>
    obtain ⟨-, -, hp, hm⟩ := decFinalEffect_frame len s
    exact Prod.ext hp hm
  | _ => rfl

/-- A command leaves ERR and ERR_CODE alone, unless it is a DEC_FINAL that fails (R201, R242). -/
theorem commandEffect_err_cases (i : Instr) (s : State) :
    ((commandEffect i s).err = s.err ∧ (commandEffect i s).errCode = s.errCode) ∨
      ((commandEffect i s).err = true ∧ (commandEffect i s).errCode = .tagFail) := by
  cases i with
  | decFinal len => exact (decFinalEffect_cases len s).imp And.right And.right
  | _ => exact .inl ⟨rfl, rfl⟩

/-- TAG_OK is set by a DEC_FINAL alone, which leaves OUT4..7 zero (spec/10_state.md R29, R201). -/
theorem commandEffect_tagOk_cases {i : Instr} {s : State} (h : (commandEffect i s).tagOk = true) :
    s.tagOk = true ∨ ((commandEffect i s).phase = .finalized ∧ (commandEffect i s).mode = .dec ∧
      (commandEffect i s).out.hi = Quad.zero) := by
  cases i with
  | decFinal len =>
    obtain ⟨-, -, hp, hm⟩ := decFinalEffect_frame len s
    obtain ⟨ho, -⟩ | ⟨ht, -⟩ := decFinalEffect_cases len s
    · exact .inr ⟨hp, hm, ho⟩
    · exact absurd (h.symm.trans ht) nofun
  | zeroize => cases h
  | _ => exact .inl h

/-- No command but ZEROIZE writes KEY or NONCE (R36, R37, R163). -/
theorem commandEffect_key_nonce {i : Instr} (h : i ≠ .zeroize) (s : State) :
    (commandEffect i s).key = s.key ∧ (commandEffect i s).nonce = s.nonce := by
  cases i with
  | decFinal len =>
    obtain ⟨hk, hn, -, -⟩ := decFinalEffect_frame len s
    exact ⟨hk, hn⟩
  | zeroize => exact absurd rfl h
  | _ => exact ⟨rfl, rfl⟩

end Sys2Proof.Machine

/-! The invariant of the machine (spec/10_state.md R20, R28, R29, R33, R43, R44): reset establishes it, and every part
of a clock cycle keeps it. -/

namespace Sys2Proof.Machine.State

theorem hiddenFits_of_none {s : State} (h : s.cmd = none) :
    s.hiddenFits ↔ s.seqStep = 0 ∧ s.round = 0 ∧ s.scratch = Scratch.zero := by
  unfold hiddenFits
  rw [h]

theorem hiddenFits_of_some {s : State} {i : Instr} (h : s.cmd = some i) :
    s.hiddenFits ↔
      i.wellFormed s.params = true ∧ legalCommand i s.phase s.mode = true ∧ s.seqStep < latency s.params i ∧
        s.done = false ∧ s.tagOk = false ∧ s.out = Oct.zero ∧ s.round = roundAt s.params i s.seqStep ∧
        s.scratch = scratchAt s.params i s.seqStep s.din s.sponge := by
  unfold hiddenFits
  rw [h]

theorem Inv.resetWith {p : Params} (h : p.wf = true) : (State.resetWith p).Inv where
  params := h
  mode := by simp [modeFits, State.resetWith]
  err := by simp [errFits, State.resetWith]
  tag := by simp [tagFits, State.resetWith]
  idle := fun _ _ => ⟨rfl, rfl⟩
  hidden := ⟨rfl, rfl, rfl⟩

/-- The model's two fields outside the block stand in no part of the invariant. -/
theorem Inv.withPortHost {s : State} (h : s.Inv) (p : PortOut) (cs : List Cycle) :
    { s with port := p, host := cs }.Inv :=
  ⟨h.params, h.mode, h.err, h.tag, h.idle, h.hidden⟩

theorem Inv.popHost {s : State} (h : s.Inv) : s.popHost.Inv := by
  unfold State.popHost
  split
  · exact h
  · exact h.withPortHost _ _

/-- An error event with a code (spec/60_exceptions.md R242). -/
theorem Inv.raise {s : State} (h : s.Inv) {e : ErrCode} (he : e ≠ .none) : (s.raise e).Inv :=
  ⟨h.params, h.mode, iff_of_true rfl he, h.tag, h.idle, h.hidden⟩

theorem Inv.raiseIf {s : State} (h : s.Inv) {e : Option ErrCode} (he : e ≠ some .none) : (s.raiseIf e).Inv := by
  cases e with
  | none => exact h
  | some c => exact h.raise fun hc => he (congrArg some hc)

theorem Inv.writeStatus {s : State} (h : s.Inv) (v : Word) : (s.writeStatus v).Inv where
  params := by simpa using h.params
  mode := by simpa [modeFits] using h.mode
  err := by
    unfold errFits
    rw [writeStatus_err, writeStatus_errCode]
    split
    · simp
    · exact h.err
  tag := by simpa [tagFits] using h.tag
  idle := by simpa [idleClean] using h.idle
  hidden := by
    cases hc : s.cmd with
    | none => simpa [hiddenFits_of_none, hc] using h.hidden
    | some i =>
      obtain ⟨hw, hleg, hstep, hdone, htag, hout, hround, hscratch⟩ := (hiddenFits_of_some hc).mp h.hidden
      refine (hiddenFits_of_some (by simpa using hc)).mpr ?_
      simp [writeStatus_done, hw, hleg, hstep, hdone, htag, hout, hround, hscratch]

theorem Inv.writeIrqEn {s : State} (h : s.Inv) (v : Word) : (s.writeIrqEn v).Inv :=
  ⟨h.params, h.mode, h.err, h.tag, h.idle, h.hidden⟩

/-- With the latch released all hidden state is 0 (R44). -/
theorem Inv.release {s : State} (h : s.Inv) : s.release.Inv :=
  ⟨h.params, h.mode, h.err, h.tag, h.idle, ⟨rfl, rfl, rfl⟩⟩

end Sys2Proof.Machine.State

namespace Sys2Proof.Machine

/-- An access does not move the sequencer. -/
theorem accessEffect_seqStep_of_busy {s : State} {i : Instr} (h : s.cmd = some i) (c : Cycle) :
    (accessEffect c s).seqStep = s.seqStep := by
  rcases accessEffect_of_busy h c with h1 | ⟨v, h1⟩ | ⟨v, h1⟩ <;> rw [h1] <;> simp

/-- A legal P_PERM_CYCLES gives every command a window of at least one cycle (spec/70_reset_and_hazards.md R286). -/
theorem latency_pos {p : Params} (h : p.wf = true) (i : Instr) : 0 < latency p i := by
  have hc : 1 ≤ p.permCycles := of_decide_eq_true h
  cases i <;> simp only [latency, loadCyclesOf, permutationsOf] <;> omega

@[simp] theorem roundAt_zero (p : Params) (i : Instr) : roundAt p i 0 = 0 := by
  simp [roundAt]

end Sys2Proof.Machine

namespace Sys2Proof.Machine.State

/-- Acceptance of a command the checks let pass (spec/41_session.md R154). -/
theorem Inv.accept {s : State} (h : s.Inv) {i : Instr} (hw : i.wellFormed s.params = true)
    (hl : legalCommand i s.phase s.mode = true) : (s.accept i).Inv where
  params := h.params
  mode := h.mode
  err := h.err
  tag := nofun
  idle := fun hd hp => ⟨(h.idle hd hp).1, rfl⟩
  hidden := ⟨hw, hl, latency_pos h.params i, rfl, rfl, rfl, (roundAt_zero _ i).symm, rfl⟩

/-- With no command in progress, a write of an input register or of the debug window. -/
theorem Inv.withInputs {s : State} (h : s.Inv) (hc : s.cmd = none) (key : Oct) (nonce din tagin : Quad) {S : Sponge}
    (hS : s.params.debug = true ∨ S = s.sponge) :
    { s with key := key, nonce := nonce, din := din, tagin := tagin, sponge := S }.Inv where
  params := h.params
  mode := h.mode
  err := h.err
  tag := h.tag
  idle := fun hd hp => by
    have hSe : S = s.sponge := hS.resolve_left (by simpa using hd)
    simpa [hSe] using h.idle hd hp
  hidden := (hiddenFits_of_none (by exact hc)).mpr ((hiddenFits_of_none hc).mp h.hidden)

/-- The effect of any access keeps the invariant. -/
theorem Inv.accessEffect {s : State} (h : s.Inv) (c : Cycle) : (accessEffect c s).Inv := by
  rcases accessEffect_cases c s with he | ⟨v, he⟩ | ⟨v, he⟩ | ⟨hc, ⟨i, hd, hl, he⟩ | ⟨k, v, he⟩ | ⟨k, v, he⟩ |
    ⟨k, v, he⟩ | ⟨k, v, he⟩ | ⟨hd, k, v, he⟩⟩ <;> rw [he]
  · exact h
  · exact h.writeStatus v
  · exact h.writeIrqEn v
  · exact h.accept (wellFormed_of_decode hd) hl
  · exact h.withInputs hc _ _ _ _ (.inr rfl)
  · exact h.withInputs hc _ _ _ _ (.inr rfl)
  · exact h.withInputs hc _ _ _ _ (.inr rfl)
  · exact h.withInputs hc _ _ _ _ (.inr rfl)
  · exact h.withInputs hc _ _ _ _ (.inl hd)

/-- A cycle of the window before the last (R43). -/
theorem Inv.tick {s : State} (h : s.Inv) {i : Instr} (hc : s.cmd = some i) (hl : s.lastCycle i = false) :
    (s.tick i).Inv := by
  obtain ⟨hw, hleg, -, hdone, htag, hout, -, -⟩ := (hiddenFits_of_some hc).mp h.hidden
  have hstep : s.seqStep + 1 < latency s.params i := by simpa [lastCycle] using hl
  exact ⟨h.params, h.mode, h.err, h.tag, h.idle,
    (hiddenFits_of_some (by exact hc)).mpr ⟨hw, hleg, hstep, hdone, htag, hout, rfl, rfl⟩⟩

/-- PHASE and MODE fit each other in every row of the table of R155. -/
theorem modeFits_commandEffect {s : State} (h : s.modeFits) (i : Instr) : (commandEffect i s).modeFits := by
  have hpm := commandEffect_phase_mode i s
  have hp : (commandEffect i s).phase = (phaseAfter i s.phase s.mode).1 := congrArg Prod.fst hpm
  have hm : (commandEffect i s).mode = (phaseAfter i s.phase s.mode).2 := congrArg Prod.snd hpm
  unfold modeFits
  rw [hp, hm]
  cases i with
  | permute => exact h
  | _ => simp [phaseAfter]

theorem errFits_commandEffect {s : State} (h : s.errFits) (i : Instr) : (commandEffect i s).errFits := by
  unfold errFits
  rcases commandEffect_err_cases i s with ⟨he, hc⟩ | ⟨he, hc⟩ <;> rw [he, hc]
  · exact h
  · simp

/-- A command that ends in IDLE is ZEROIZE, or PERMUTE, which needs P_DEBUG (R131, R163). -/
theorem idleClean_commandEffect {s : State} {i : Instr} (hw : i.wellFormed s.params = true) :
    (commandEffect i s).idleClean := by
  intro hd hp
  have hpm := congrArg Prod.fst (commandEffect_phase_mode i s)
  simp only [hp] at hpm
  cases i with
  | zeroize => exact ⟨rfl, rfl⟩
  | permute => simp [Instr.wellFormed] at hw; simp [hw] at hd
  | _ => cases hpm

/-- An accepted command, carried out and completed. -/
theorem Inv.completed {s : State} (h : s.Inv) {i : Instr} (hw : i.wellFormed s.params = true) :
    (commandEffect i (s.accept i)).complete.Inv where
  params := by simpa using h.params
  mode := modeFits_commandEffect (s := s.accept i) h.mode i
  err := errFits_commandEffect (s := s.accept i) h.err i
  tag := fun ht => (commandEffect_tagOk_cases ht).resolve_left nofun
  idle := idleClean_commandEffect hw
  hidden := ⟨rfl, rfl, rfl⟩

/-- Every instruction keeps the invariant, whether it is accepted or turned away. -/
theorem Inv.exec {s t : State} (h : s.Inv) {i : Instr} (ht : exec i s = .next t) : t.Inv := by
  rcases exec_cases ht with ⟨e, he, rfl⟩ | ⟨he, rfl⟩
  · refine h.raise ?_
    rcases checkCommand_some he with ⟨-, rfl⟩ | ⟨-, -, rfl⟩ | ⟨-, -, rfl⟩ <;> decide
  · obtain ⟨-, hw, -⟩ := (checkInstr_eq_none_iff s i).mp he
    exact h.completed hw

/-- Every clock cycle keeps the invariant. -/
theorem Inv.clockEdge {s t : State} (h : s.Inv) {c : Cycle} (ht : clockEdge c s = .next t) : t.Inv := by
  have he : accessError c s ≠ some .none := fun hn => by
    rcases accessError_cases hn with h1 | h1 | h1 | h1 <;> cases h1
  have ha : { Machine.accessEffect c s with port := portOut c s }.Inv := (h.accessEffect c).withPortHost _ _
  rcases clockEdge_cases ht with ⟨-, rfl⟩ | ⟨-, -, rfl⟩ | ⟨-, i, hc, hl, rfl⟩ | ⟨-, i, u, -, -, hu, rfl⟩
  · exact (Inv.resetWith h.params).withPortHost _ _
  · exact ha.raiseIf he
  · refine (ha.tick (accessEffect_cmd_of_busy hc c) ?_).raiseIf he
    simpa only [lastCycle, accessEffect_params, accessEffect_seqStep_of_busy hc] using hl
  · exact (ha.release.exec hu).raiseIf he

end Sys2Proof.Machine.State

namespace Sys2Proof.Machine

/-- Settles O46: every value of R47 meets its part of the invariant. -/
theorem invariantHoldsAtReset : Obligations.InvariantHoldsAtReset :=
  fun _ h => .resetWith h

/-- Settles O47: a step is a clock cycle on the state with its input taken from the list, and every part of a clock
cycle keeps the invariant. -/
theorem stepKeepsInvariant : Obligations.StepKeepsInvariant :=
  fun _ _ h ht => h.popHost.clockEdge ht

end Sys2Proof.Machine

/-! The STATUS and IRQ_EN registers: their words bit by bit, what a host write does to them, and what the host can see
of the machine through them (spec/10_state.md R25 to R35, R42). -/

namespace Sys2Proof.Machine

theorem bitWord_getLsbD (b : Bool) (n : Nat) : (bitWord b).getLsbD n = (decide (n = 0) && b) := by
  cases b <;> simp [bitWord]

/-- A multi-bit field of STATUS, shifted to its place (spec/20_memory.md R66). -/
theorem field_getLsbD {w : Nat} (x : BitVec w) (k n : Nat) :
    (x.setWidth 32 <<< k).getLsbD n = (decide (k ≤ n ∧ n < 32) && x.getLsbD (n - k)) := by
  by_cases h : n < 32 <;> by_cases h' : k ≤ n <;> simp [h, h']

/-- A one-bit field of STATUS, shifted to its place (R66). -/
theorem flag_getLsbD (b : Bool) {k : Nat} (hk : k < 32) (n : Nat) :
    (bitWord b <<< k).getLsbD n = (decide (n = k) && b) := by
  rw [BitVec.getLsbD_shiftLeft, bitWord_getLsbD]
  rcases Nat.lt_trichotomy n k with h | rfl | h
  · simp [h, h.ne]
  · simp [hk]
  · simp [h.ne', Nat.sub_ne_zero_of_lt h]

/-- Every bit of STATUS (R25, R31). -/
theorem State.statusWord_getLsbD (s : State) (n : Nat) :
    s.statusWord.getLsbD n =
      (decide (n = 0) && s.busy || decide (n = 1) && s.done || decide (n = 2) && s.err || decide (n = 3) && s.tagOk ||
        decide (4 ≤ n ∧ n < 32) && s.phase.code.getLsbD (n - 4) ||
        decide (8 ≤ n ∧ n < 32) && s.mode.code.getLsbD (n - 8) || decide (n = 10) && s.params.debug) := by
  simp (disch := decide) only [statusWord, BitVec.getLsbD_or, bitWord_getLsbD, flag_getLsbD, field_getLsbD]

/-- PHASE never reads 4 to 7 (R31). -/
theorem Phase.code_toNat_le (p : Phase) : p.code.toNat ≤ 3 := by cases p <;> decide

/-- STATUS[6:4] is PHASE (R25). -/
theorem State.statusWord_phase (s : State) : s.statusWord.extractLsb' 4 3 = s.phase.code := by
  refine BitVec.eq_of_getLsbD_eq fun n hn => ?_
  rw [BitVec.getLsbD_extractLsb', statusWord_getLsbD]
  rcases (by omega : n = 0 ∨ n = 1 ∨ n = 2) with rfl | rfl | rfl <;> simp

/-- STATUS[9:8] is MODE (R25). -/
theorem State.statusWord_mode (s : State) : s.statusWord.extractLsb' 8 2 = s.mode.code := by
  refine BitVec.eq_of_getLsbD_eq fun n hn => ?_
  rw [BitVec.getLsbD_extractLsb', statusWord_getLsbD]
  rcases (by omega : n = 0 ∨ n = 1) with rfl | rfl <;> simp

/-- STATUS.DBG is P_DEBUG (R30). -/
theorem State.statusWord_debug (s : State) : s.statusWord.getLsbD 10 = s.params.debug := by
  rw [statusWord_getLsbD]; simp

/-- STATUS[31:11] is reserved (R31). -/
theorem State.statusWord_reserved (s : State) {n : Nat} (hn : 11 ≤ n) : s.statusWord.getLsbD n = false := by
  have hp : s.phase.code.getLsbD (n - 4) = false := BitVec.getLsbD_of_ge _ _ (by omega)
  have hm : s.mode.code.getLsbD (n - 8) = false := BitVec.getLsbD_of_ge _ _ (by omega)
  rw [statusWord_getLsbD, hp, hm]
  simp; omega

/-! ### Host writes of STATUS and IRQ_EN -/

/-- A STATUS write has no other effect (R32). -/
theorem State.writeStatus_eq (v : Word) (s : State) :
    s.writeStatus v =
      { s with
        done := s.done && !v.getLsbD 1, err := s.err && !v.getLsbD 2
        errCode := if v.getLsbD 2 then .none else s.errCode } := by
  unfold writeStatus
  cases v.getLsbD 1 <;> cases v.getLsbD 2 <;> simp [clearErr]

theorem accessEffect_write_status (v : Word) (s : State) :
    accessEffect (Cycle.write 0x08 v) s = s.writeStatus v := (access_write .status v s nofun).1

theorem accessError_write_status (v : Word) (s : State) : accessError (Cycle.write 0x08 v) s = none :=
  (access_write .status v s nofun).2

theorem busAccess_write_status (v : Word) (s : State) : busAccess (Cycle.write 0x08 v) s = s.writeStatus v := by
  rw [busAccess, accessEffect_write_status, accessError_write_status, State.raiseIf_none]

theorem busAccess_write_irqEn (v : Word) (s : State) : busAccess (Cycle.write 0x10 v) s = s.writeIrqEn v := by
  obtain ⟨he, hn⟩ := access_write .irqEn v s nofun
  exact congrArg₂ State.raiseIf hn he

/-- IRQ_EN reads back what was written, reserved bits apart (R35). -/
theorem State.irqEnWord_writeIrqEn (v : Word) (s : State) : (s.writeIrqEn v).irqEnWord = v &&& 0x3 := by
  refine BitVec.eq_of_getLsbD_eq fun n hn => ?_
  have hmask : (0x3 : Word).getLsbD n = (decide (n = 1) || decide (n = 0)) := by revert n; decide
  simp (disch := decide) only [irqEnWord, BitVec.getLsbD_or, flag_getLsbD, bitWord_getLsbD, BitVec.getLsbD_and, hmask,
    writeIrqEn_errIe, writeIrqEn_doneIe]
  by_cases h0 : n = 0
  · simp [h0]
  · by_cases h1 : n = 1 <;> simp [h0, h1]

/-- Settles O31: the fields are the bits of `State.statusWord_getLsbD`, and a STATUS write reads bits 1 and 2 alone. -/
theorem statusFieldsAndReservedBits : Obligations.StatusFieldsAndReservedBits := by
  intro s
  refine ⟨?_, ?_, ?_, ?_, ?_, ?_, ?_, s.statusWord_debug, ?_, fun b hb => s.statusWord_reserved hb, fun v => ?_⟩
  · rw [State.statusWord_getLsbD]; simp [State.busy]
  · rw [State.statusWord_getLsbD]; simp
  · rw [State.statusWord_getLsbD]; simp
  · rw [State.statusWord_getLsbD]; simp
  · rw [State.statusWord_phase]; cases s.phase <;> rfl
  · rw [State.statusWord_phase]; exact s.phase.code_toNat_le
  · rw [State.statusWord_mode]; cases s.mode <;> rfl
  · rw [State.statusWord_getLsbD]; simp
  · rw [busAccess_write_status, busAccess_write_status, State.writeStatus_eq, State.writeStatus_eq]
    simp

/-- Settles O32: the write is `State.writeIrqEn`, and its two bits are all that reads back. -/
theorem irqEnKeepsTwoBits : Obligations.IrqEnKeepsTwoBits := by
  intro s v
  rw [busAccess_write_irqEn]
  exact ⟨s.irqEnWord_writeIrqEn v, rfl⟩

/-- Settles O35: the two clearing writes make both terms of the formula 0, and so does reset. -/
theorem irqIsLevelOfEnabledSources : Obligations.IrqIsLevelOfEnabledSources := by
  intro s
  refine ⟨by simp [State.irq], ?_, ?_, rfl⟩
  · rw [busAccess_write_status, State.writeStatus_eq]; simp [State.irq]
  · rw [busAccess_write_irqEn]; simp [State.irq]

/-! ### A completion in the cycle of a STATUS write -/

/-- In the last cycle of its window a command that is legal is carried out on the state the STATUS write left, so what
it sets is set (R32). -/
theorem clockEdge_write_status_of_last {s : State} {i : Instr} (hc : s.cmd = some i)
    (hw : i.wellFormed s.params = true) (hl : legalCommand i s.phase s.mode = true)
    (hlast : latency s.params i ≤ s.seqStep + 1) (v : Word) :
    clockEdge (Cycle.write 0x08 v) s =
      .next (commandEffect i
        ({ s.writeStatus v with port := portOut (Cycle.write 0x08 v) s }.release.accept i)).complete := by
  rw [clockEdge_of_last rfl hc (decide_eq_true hlast), accessError_write_status, accessEffect_write_status,
    exec_of_accepted]
  · rfl
  · exact (checkInstr_eq_none_iff _ i).mpr ⟨rfl, by simpa using hw, by simpa using hl⟩

/-- The domain word of a cipher command: LEN has four bits, so its part above them is 0 (spec/41_session.md R157). -/
theorem domainCipher_eq (len : BitVec 4) : domainCipher len = 0x05000000 := by revert len; decide

/-- What DEC_FINAL absorbs, byte by byte: the ciphertext below LEN, the keystream from there on, with 0x80 in byte LEN
(spec/43_decrypt.md R201). -/
theorem decFinalAbsorb_eq_finalInput (len : BitVec 4) (din : Quad) (S : Sponge) :
    decFinalAbsorb len din S = finalInput 0x05000000 din.byte len S := by
  have hrate : (rate S).xor (decFinalBlock len din S) = (finalInput 0x05000000 din.byte len S).p0 := by
    refine Quad.ext_byte fun j => ?_
    rw [Quad.byte_xor, decFinalBlock, byte_setByte, Quad.byte_xor, byte_mask, byte_mask, finalInput, Quad.byte_ofBytes]
    rcases Nat.lt_trichotomy j.val len.toNat with h | h | h
    · simp [h, h.ne, rate]
    · simp [h, rate]
    · simp [h.ne', h.not_gt, rate]
  rw [decFinalAbsorb, hrate, domainCipher_eq]
  rfl

/-- Settles O34: a completion comes after the access's effect, so its set of DONE, or of ERR with TAG_FAIL, wins. -/
theorem statusWriteClearsAndSetWins : Obligations.StatusWriteClearsAndSetWins := by
  refine ⟨fun s v => ?_, fun s t i v hc hw hl hlast ht => ?_, fun s t len v hc hl hlast hne ht => ?_⟩
  · rw [busAccess_write_status, State.writeStatus_eq]
  · rw [clockEdge_write_status_of_last hc hw hl hlast] at ht
    cases ht
    exact ⟨rfl, rfl⟩
  · rw [clockEdge_write_status_of_last hc rfl hl hlast, commandEffect, decFinalEffect_of_mismatch] at ht
    · cases ht
      exact ⟨rfl, rfl⟩
    · simpa [decFinalAbsorb_eq_finalInput, rate] using hne

/-! ### What the host can see -/

/-- A host read returns what the visible state says (spec/20_memory.md R66, spec/60_exceptions.md R256). -/
theorem busRead_of_sameVisible {s t : State} (h : sameVisible s t) {r : Reg}
    (hr : ∀ k, r = .stateWord k → s.params.debug = true) : busRead r s = busRead r t := by
  obtain ⟨hparams, hout, hdone, herr, htag, hphase, hmode, hcode, hdie, heie, hbusy, hsponge⟩ := h
  cases r with
  | status => simp [busRead, State.statusWord, hparams, hdone, herr, htag, hphase, hmode, hbusy]
  | errCode => simp [busRead, State.errCodeWord, hcode]
  | irqEn => simp [busRead, State.irqEnWord, hdie, heie]
  | out k => simp [busRead, hbusy, hout]
  | stateWord k => simp [busRead, hbusy, hsponge (hr k rfl)]
  | _ => rfl

/-- Settles O56: the port is a function of the inputs and of what a read returns, and irq_o of four flags. -/
theorem outputsHideSensitiveRegisters : Obligations.OutputsHideSensitiveRegisters := by
  intro s t c h
  have hread := fun r => busRead_of_sameVisible (r := r) h
  obtain ⟨hparams, -, hdone, herr, -, -, -, -, hdie, heie, -⟩ := h
  constructor
  · unfold portOut
    rw [← hparams]
    cases hr : regAt s.params c.addr with
    | none => rfl
    | some r => simp only [hread r fun k hk => debug_of_regAt_stateWord (hk ▸ hr)]
  · rw [State.irq, State.irq, hdone, herr, hdie, heie]

end Sys2Proof.Machine

/-! Who writes what: a change of S, KEY, NONCE, DONE or ERR in one step, traced to the access or the command that made
it (spec/10_state.md R20, R27, R28, R30, R36, R37, R41). -/

namespace Sys2Proof.Machine

/-! ### The effect of an access, by the register it writes -/

/-- An access changes nothing unless it is a write to a register (spec/20_memory.md R65 to R68). -/
theorem accessEffect_eq_self_or_write (c : Cycle) (s : State) :
    accessEffect c s = s ∨ ∃ r, c.writesReg s.params r ∧ accessEffect c s = writeEffect r c.wdata s := by
  unfold accessEffect
  cases hq : c.req && c.we with
  | false => exact .inl rfl
  | true =>
    obtain ⟨hreq, hwe⟩ := Bool.and_eq_true_iff.mp hq
    cases hr : regAt s.params c.addr with
    | none => exact .inl rfl
    | some r => exact .inr ⟨r, ⟨hreq, hwe, hr⟩, rfl⟩

/-- A CMD write latches a command or changes nothing, its error event apart (spec/41_session.md R154). -/
theorem latch_cases (v : Word) (s : State) :
    s.latch v = s ∨ (s.cmd = none ∧ ∃ i, s.latch v = s.accept i) := by
  unfold State.latch
  cases decode s.params v with
  | none => exact .inl rfl
  | some i =>
    cases hc : s.checkCommand (some i) with
    | some e => exact .inl (by simp [hc])
    | none => exact .inr ⟨((checkCommand_eq_none_iff s _).mp hc).1, i, by simp [hc]⟩

@[simp] theorem latch_sponge (v : Word) (s : State) : (s.latch v).sponge = s.sponge := by
  rcases latch_cases v s with h | ⟨-, i, h⟩ <;> simp [h]
@[simp] theorem latch_key (v : Word) (s : State) : (s.latch v).key = s.key := by
  rcases latch_cases v s with h | ⟨-, i, h⟩ <;> simp [h]
@[simp] theorem latch_nonce (v : Word) (s : State) : (s.latch v).nonce = s.nonce := by
  rcases latch_cases v s with h | ⟨-, i, h⟩ <;> simp [h]
@[simp] theorem latch_err (v : Word) (s : State) : (s.latch v).err = s.err := by
  rcases latch_cases v s with h | ⟨-, i, h⟩ <;> simp [h]

/-- While a command is in progress no access reaches S, KEY or NONCE (spec/60_exceptions.md R245). -/
theorem accessEffect_inputs_of_busy {s : State} {i : Instr} (h : s.cmd = some i) (c : Cycle) :
    (accessEffect c s).sponge = s.sponge ∧ (accessEffect c s).key = s.key ∧ (accessEffect c s).nonce = s.nonce := by
  rcases accessEffect_of_busy h c with h1 | ⟨v, h1⟩ | ⟨v, h1⟩ <;> simp [h1]

/-- Of all accesses only a write to a STATE register changes S (spec/10_state.md R41). -/
theorem writesReg_of_sponge_ne {c : Cycle} {s : State} (h : (accessEffect c s).sponge ≠ s.sponge) :
    ∃ k, c.writesReg s.params (.stateWord k) := by
  rcases accessEffect_eq_self_or_write c s with he | ⟨r, hr, he⟩ <;> rw [he] at h
  · exact absurd rfl h
  · cases r with
    | stateWord k => exact ⟨k, hr⟩
    | _ => simp [writeEffect, apply_ite State.sponge] at h

theorem debug_of_writesReg_stateWord {c : Cycle} {p : Params} {k : Fin 12} (h : c.writesReg p (.stateWord k)) :
    p.debug = true := by
  obtain ⟨-, -, hr⟩ := h
  exact debug_of_regAt_stateWord hr

/-- Only a write to a KEY register changes KEY (R36). -/
theorem writesReg_of_key_ne {c : Cycle} {s : State} (h : (accessEffect c s).key ≠ s.key) :
    ∃ k, c.writesReg s.params (.key k) := by
  rcases accessEffect_eq_self_or_write c s with he | ⟨r, hr, he⟩ <;> rw [he] at h
  · exact absurd rfl h
  · cases r with
    | key k => exact ⟨k, hr⟩
    | _ => simp [writeEffect, apply_ite State.key] at h

/-- Only a write to a NONCE register changes NONCE (R37). -/
theorem writesReg_of_nonce_ne {c : Cycle} {s : State} (h : (accessEffect c s).nonce ≠ s.nonce) :
    ∃ k, c.writesReg s.params (.nonce k) := by
  rcases accessEffect_eq_self_or_write c s with he | ⟨r, hr, he⟩ <;> rw [he] at h
  · exact absurd rfl h
  · cases r with
    | nonce k => exact ⟨k, hr⟩
    | _ => simp [writeEffect, apply_ite State.nonce] at h

/-- STATUS is reached at its offset alone (spec/20_memory.md R63). -/
theorem eq_offsetOf_of_regAt_status {p : Params} {a : BitVec 8} (h : regAt p a = some .status) :
    a = offsetOf .status := by
  unfold regAt regAtNat at h
  iterate 3 replace h := eq_some_of_ite h (fun hh => by cases hh)
  by_cases ha : a.toNat = 0x08
  · exact BitVec.eq_of_toNat_eq ha
  · rw [if_neg ha] at h
    iterate 2 replace h := eq_some_of_ite h (fun hh => by cases hh)
    iterate 6 replace h := eq_some_of_dite h (fun _ hh => by cases hh)
    cases h

/-- A write to the register STATUS with bit `b` set is the clearing write of that bit. -/
theorem clearsStatusBit_of_writesReg {c : Cycle} {p : Params} (h : c.writesReg p .status) {b : Nat}
    (hb : c.wdata.getLsbD b = true) : c.clearsStatusBit b := by
  obtain ⟨hreq, hwe, hr⟩ := h
  exact ⟨hreq, hwe, eq_offsetOf_of_regAt_status hr, hb⟩

/-- An access takes DONE from 1 to 0 by a STATUS write with bit 1, or by the acceptance of a command (R27). -/
theorem accessEffect_done_falls {c : Cycle} {s : State} (h1 : s.done = true) (h0 : (accessEffect c s).done = false) :
    c.clearsStatusBit 1 ∨ (s.cmd = none ∧ ∃ i, (accessEffect c s).cmd = some i) := by
  rcases accessEffect_eq_self_or_write c s with he | ⟨r, hr, he⟩ <;> rw [he] at h0 ⊢
  · simp [h1] at h0
  · cases r with
    | status =>
      refine .inl (clearsStatusBit_of_writesReg hr ?_)
      simpa [writeEffect, State.writeStatus_eq, h1] using h0
    | cmd =>
      rcases latch_cases c.wdata s with hl | ⟨hc, i, hl⟩
      · simp [writeEffect, hl, h1] at h0
      · exact .inr ⟨hc, i, by simp [writeEffect, hl]⟩
    | _ => simp [writeEffect, apply_ite State.done, h1] at h0

/-- An access takes ERR from 1 to 0 by a STATUS write with bit 2 (R28). -/
theorem accessEffect_err_falls {c : Cycle} {s : State} (h1 : s.err = true) (h0 : (accessEffect c s).err = false) :
    c.clearsStatusBit 2 := by
  rcases accessEffect_eq_self_or_write c s with he | ⟨r, hr, he⟩ <;> rw [he] at h0
  · simp [h1] at h0
  · cases r with
    | status =>
      refine clearsStatusBit_of_writesReg hr ?_
      simpa [writeEffect, State.writeStatus_eq, h1] using h0
    | _ => simp [writeEffect, apply_ite State.err, h1] at h0

/-! ### One step -/

/-- No step changes a parameter (R30). -/
theorem step_params {s t : State} (h : step s = .next t) : t.params = s.params := by
  rcases clockEdge_cases h with ⟨-, rfl⟩ | ⟨-, -, rfl⟩ | ⟨-, i, -, -, rfl⟩ | ⟨-, i, u, -, -, hu, rfl⟩
  · simp
  · simp [accessEffect_params]
  · simp [State.tick, accessEffect_params]
  · rcases exec_cases hu with ⟨e, -, rfl⟩ | ⟨-, rfl⟩ <;> simp [accessEffect_params]

/-- Settles O53: STATUS.DBG is P_DEBUG in every state, and the step keeps P_DEBUG. -/
theorem parametersNeverChange : Obligations.ParametersNeverChange := by
  intro s t h
  refine ⟨step_params h, s.statusWord_debug, ?_⟩
  rw [t.statusWord_debug, step_params h]

/-- Settles O48: before the last cycle of a window S is untouched, and with no command in progress it changes by the
access alone. -/
theorem spongeHasThreeWriters : Obligations.SpongeHasThreeWriters := by
  intro s t h hne
  rcases clockEdge_cases h with ⟨hr, -⟩ | ⟨-, hc, rfl⟩ | ⟨-, i, hc, -, rfl⟩ | ⟨-, i, u, hc, hl, -, -⟩
  · exact .inl hr
  · have hw : (accessEffect s.nextCycle s.popHost).sponge ≠ s.popHost.sponge := by simpa using hne
    obtain ⟨k, hk⟩ := writesReg_of_sponge_ne hw
    have hdebug : s.popHost.params.debug = true := debug_of_writesReg_stateWord hk
    rw [State.popHost_params] at hk hdebug
    exact .inr (.inr ⟨by simpa using hc, hdebug, k, hk⟩)
  · obtain ⟨hs, -⟩ := accessEffect_inputs_of_busy hc s.nextCycle
    simp [State.tick, hs] at hne
  · exact .inr (.inl ⟨i, by simpa using hc, by simpa [State.lastCycle] using hl⟩)

theorem exec_key_nonce {i : Instr} (hi : i ≠ .zeroize) {s t : State} (h : exec i s = .next t) :
    t.key = s.key ∧ t.nonce = s.nonce := by
  rcases exec_cases h with ⟨e, -, rfl⟩ | ⟨-, rfl⟩
  · exact ⟨rfl, rfl⟩
  · exact commandEffect_key_nonce hi (s.accept i)

/-- With a command other than ZEROIZE in progress a clock cycle without reset keeps KEY and NONCE (R36, R37). -/
theorem clockEdge_key_nonce_of_busy {c : Cycle} {s t : State} {i : Instr} (hr : c.rst = false) (hc : s.cmd = some i)
    (hi : i ≠ .zeroize) (h : clockEdge c s = .next t) : t.key = s.key ∧ t.nonce = s.nonce := by
  obtain ⟨-, hk, hn⟩ := accessEffect_inputs_of_busy hc c
  rcases clockEdge_cases h with ⟨hr', -⟩ | ⟨-, hc', -⟩ | ⟨-, j, hc', -, rfl⟩ | ⟨-, j, u, hc', -, hu, rfl⟩
  · simp [hr] at hr'
  · simp [hc] at hc'
  · simp [State.tick, hk, hn]
  · cases hc.symm.trans hc'
    obtain ⟨hk', hn'⟩ := exec_key_nonce hi hu
    exact ⟨by simp [hk', hk], by simp [hn', hn]⟩

/-- Settles O49: with no command in progress the access alone can change them, and of the commands ZEROIZE alone. -/
theorem keyAndNonceAreKept : Obligations.KeyAndNonceAreKept := by
  intro s t h
  by_cases hr : s.nextCycle.rst = true
  · exact ⟨fun _ => .inl hr, fun _ => .inl hr⟩
  replace hr : s.nextCycle.rst = false := by simpa using hr
  cases hc : s.cmd with
  | none =>
    have ht := clockEdge_of_idle hr (s := s.popHost) (by simpa using hc)
    cases ht.symm.trans h
    refine ⟨fun hne => .inr (.inr ⟨rfl, ?_⟩), fun hne => .inr (.inr ⟨rfl, ?_⟩)⟩
    · rw [← s.popHost_params]
      exact writesReg_of_key_ne (by simpa using hne)
    · rw [← s.popHost_params]
      exact writesReg_of_nonce_ne (by simpa using hne)
  | some i =>
    by_cases hi : i = .zeroize
    · subst hi
      exact ⟨fun _ => .inr (.inl rfl), fun _ => .inr (.inl rfl)⟩
    · obtain ⟨hk, hn⟩ := clockEdge_key_nonce_of_busy (s := s.popHost) hr (by simpa using hc) hi h
      exact ⟨fun hne => absurd (by simpa using hk) hne, fun hne => absurd (by simpa using hn) hne⟩

/-- No command takes ERR from 1 to 0, and none ends with DONE = 0 unless it found it so (R27, R28). -/
theorem exec_done_err {i : Instr} {s t : State} (h : exec i s = .next t) :
    (t.done = false → s.done = false) ∧ (t.err = false → s.err = false) := by
  rcases exec_cases h with ⟨e, -, rfl⟩ | ⟨-, rfl⟩
  · exact ⟨id, nofun⟩
  · refine ⟨nofun, fun ht => ?_⟩
    rcases commandEffect_err_cases i (s.accept i) with ⟨he, -⟩ | ⟨he, -⟩
    · exact he.symm.trans ht
    · exact absurd (he.symm.trans ht) nofun

theorem err_of_raiseIf {s : State} {e : Option ErrCode} (h : (s.raiseIf e).err = false) : s.err = false := by
  cases e with
  | none => exact h
  | some c => cases h

/-- Without reset the command in progress only sets DONE and ERR, so where they end 0 the access left them 0; with none
in progress the latch is as the access left it. -/
theorem clockEdge_done_err {c : Cycle} {s t : State} (hr : c.rst = false) (h : clockEdge c s = .next t) :
    (t.done = false → (accessEffect c s).done = false) ∧ (t.err = false → (accessEffect c s).err = false) ∧
      (s.cmd = none → t.cmd = (accessEffect c s).cmd) := by
  rcases clockEdge_cases h with ⟨hr', -⟩ | ⟨-, -, rfl⟩ | ⟨-, i, hc, -, rfl⟩ | ⟨-, i, u, hc, -, hu, rfl⟩
  · simp [hr] at hr'
  · exact ⟨by simp, fun ht => (err_of_raiseIf ht :), by simp⟩
  · exact ⟨by simp [State.tick], fun ht => (err_of_raiseIf ht :), by simp [hc]⟩
  · obtain ⟨hd, he⟩ := exec_done_err hu
    exact ⟨fun ht => hd (by simpa using ht), fun ht => he (err_of_raiseIf ht), by simp [hc]⟩

/-- Settles O51: where DONE or ERR falls without reset, the access of the cycle made it fall. -/
theorem doneAndErrAreSticky : Obligations.DoneAndErrAreSticky := by
  intro s t h
  by_cases hr : s.nextCycle.rst = true
  · exact ⟨fun _ _ => .inl hr, fun _ _ => .inl hr⟩
  obtain ⟨hd, he, hcmd⟩ := clockEdge_done_err (by simpa using hr) h
  refine ⟨fun h1 h0 => .inr ?_, fun h1 h0 => .inr (accessEffect_err_falls (by simpa using h1) (he h0))⟩
  refine (accessEffect_done_falls (by simpa using h1) (hd h0)).imp_right fun ⟨hc, i, hi⟩ => ?_
  exact ⟨by simpa using hc, i, (hcmd hc).trans hi⟩

end Sys2Proof.Machine

/-! KEY and NONCE flow into nothing but INIT's header (spec/10_state.md R37, spec/30_encoding.md R94,
spec/41_session.md R160): two machines that differ in KEY and NONCE alone still differ in them alone after a step,
unless the command in progress is an INIT that loads different headers. -/

namespace Sys2Proof.Machine

/-- The state with other values in KEY and NONCE. -/
def State.rekey (k : Oct) (n : Quad) (s : State) : State := { s with key := k, nonce := n }

/-- The two states differ in KEY and NONCE at most. -/
def agreeButKeyNonce (s u : State) : Prop := ∃ k n, u = s.rekey k n

/-! ### The parts of a clock cycle that do not read KEY or NONCE -/

theorem agreeButKeyNonce.raiseIf {s u : State} (h : agreeButKeyNonce s u) (e : Option ErrCode) :
    agreeButKeyNonce (s.raiseIf e) (u.raiseIf e) := by
  obtain ⟨k, n, rfl⟩ := h
  cases e <;> exact ⟨k, n, rfl⟩

theorem agreeButKeyNonce.withPort {s u : State} (h : agreeButKeyNonce s u) (p : PortOut) :
    agreeButKeyNonce { s with port := p } { u with port := p } := by
  obtain ⟨k, n, rfl⟩ := h
  exact ⟨k, n, rfl⟩

theorem agreeButKeyNonce.tick {s u : State} (h : agreeButKeyNonce s u) (i : Instr) :
    agreeButKeyNonce (s.tick i) (u.tick i) := by
  obtain ⟨k, n, rfl⟩ := h
  exact ⟨k, n, rfl⟩

theorem agreeButKeyNonce.release {s u : State} (h : agreeButKeyNonce s u) :
    agreeButKeyNonce s.release u.release := by
  obtain ⟨k, n, rfl⟩ := h
  exact ⟨k, n, rfl⟩

theorem agreeButKeyNonce.popHost {s u : State} (h : agreeButKeyNonce s u) :
    agreeButKeyNonce s.popHost u.popHost := by
  obtain ⟨k, n, rfl⟩ := h
  cases hh : s.host <;> exact ⟨k, n, by simp [State.popHost, State.rekey, hh]⟩

theorem agreeButKeyNonce.latch {s u : State} (h : agreeButKeyNonce s u) (v : Word) :
    agreeButKeyNonce (s.latch v) (u.latch v) := by
  obtain ⟨k, n, rfl⟩ := h
  have hc : ∀ d, (s.rekey k n).checkCommand d = s.checkCommand d := fun _ => rfl
  refine ⟨k, n, ?_⟩
  unfold State.latch
  rw [show (s.rekey k n).params = s.params from rfl]
  cases decode s.params v with
  | none => rfl
  | some i => simp only [hc]; cases s.checkCommand (some i) <;> rfl

/-- A write that is dropped while BUSY = 1 (spec/60_exceptions.md R245). -/
theorem agreeButKeyNonce.unlessBusy {s u s' u' : State} (h : agreeButKeyNonce s u) (h' : agreeButKeyNonce s' u') :
    agreeButKeyNonce (if s.busy then s else s') (if u.busy then u else u') := by
  have hbusy : u.busy = s.busy := by
    obtain ⟨k, n, rfl⟩ := h
    rfl
  rw [hbusy]
  split
  · exact h
  · exact h'

theorem agreeButKeyNonce.writeEffect {s u : State} (h : agreeButKeyNonce s u) (r : Reg) (v : Word) :
    agreeButKeyNonce (writeEffect r v s) (writeEffect r v u) := by
  have ⟨k, n, hu⟩ := h
  cases r with
  | cmd => exact h.latch v
  | status => exact ⟨k, n, by simp only [Machine.writeEffect, State.writeStatus_eq, hu]; rfl⟩
  | irqEn => exact ⟨k, n, by rw [hu]; rfl⟩
  | key j => exact h.unlessBusy ⟨k.set j v, n, by rw [hu]; rfl⟩
  | nonce j => exact h.unlessBusy ⟨k, n.set j v, by rw [hu]; rfl⟩
  | din j => exact h.unlessBusy ⟨k, n, by rw [hu]; rfl⟩
  | tagin j => exact h.unlessBusy ⟨k, n, by rw [hu]; rfl⟩
  | stateWord j => exact h.unlessBusy ⟨k, n, by rw [hu]; rfl⟩
  | _ => exact h

/-- An access writes KEY and NONCE, but moves nothing out of them. -/
theorem agreeButKeyNonce.accessEffect {s u : State} (h : agreeButKeyNonce s u) (c : Cycle) :
    agreeButKeyNonce (accessEffect c s) (accessEffect c u) := by
  have hparams : u.params = s.params := by
    obtain ⟨k, n, rfl⟩ := h
    rfl
  unfold Machine.accessEffect
  rw [hparams]
  split
  · cases regAt s.params c.addr with
    | none => exact h
    | some r => exact h.writeEffect r c.wdata
  · exact h

/-! ### The commands -/

theorem decFinalEffect_rekey (len : BitVec 4) (k : Oct) (n : Quad) (s : State) :
    decFinalEffect len (s.rekey k n) = (decFinalEffect len s).rekey k n := by
  by_cases h : s.tagin = rate (permute (decFinalAbsorb len s.din s.sponge))
  · rw [decFinalEffect_of_match h, decFinalEffect_of_match (s := s.rekey k n) h]; rfl
  · rw [decFinalEffect_of_mismatch h, decFinalEffect_of_mismatch (s := s.rekey k n) h]; rfl

/-- A command reads KEY and NONCE through INIT's header alone. -/
theorem agreeButKeyNonce.commandEffect {s u : State} (h : agreeButKeyNonce s u) {i : Instr}
    (hh : ∀ na, i = .init na → u.header na = s.header na) :
    agreeButKeyNonce (commandEffect i s) (commandEffect i u) := by
  obtain ⟨k, n, rfl⟩ := h
  cases i with
  | init na => exact ⟨k, n, by simp only [Machine.commandEffect, initEffect, hh na rfl]; rfl⟩
  | decFinal len => exact ⟨k, n, decFinalEffect_rekey len k n s⟩
  | zeroize => exact ⟨Oct.zero, Quad.zero, rfl⟩
  | _ => exact ⟨k, n, rfl⟩

/-- The checks of R154 do not read KEY or NONCE, so the two machines accept the same commands. -/
theorem agreeButKeyNonce.exec {s t u : State} (h : agreeButKeyNonce s u) {i : Instr}
    (hh : ∀ na, i = .init na → u.header na = s.header na) (ht : exec i s = .next t) :
    ∃ v, exec i u = .next v ∧ agreeButKeyNonce t v := by
  obtain ⟨k, n, rfl⟩ := h
  rcases exec_cases ht with ⟨e, he, rfl⟩ | ⟨he, rfl⟩
  · exact ⟨_, exec_of_rejected he, k, n, rfl⟩
  · have ha : agreeButKeyNonce (s.accept i) ((s.rekey k n).accept i) := ⟨k, n, rfl⟩
    obtain ⟨k', n', hv⟩ := ha.commandEffect hh
    exact ⟨_, exec_of_accepted he, k', n', congrArg State.complete hv⟩

/-! ### The clock cycle -/

theorem header_accessEffect_of_busy {s : State} {i : Instr} (hc : s.cmd = some i) (c : Cycle) (na : Bool) :
    (accessEffect c s).header na = s.header na := by
  obtain ⟨-, hk, hn⟩ := accessEffect_inputs_of_busy hc c
  simp only [State.header, State.keyBytes, State.nonceBytes, hk, hn]

/-- What the access raises and what the port drives are the same terms in both machines: neither reads KEY or NONCE. -/
theorem agreeButKeyNonce.clockEdge {c : Cycle} {s t u : State} (h : agreeButKeyNonce s u)
    (hh : ∀ na, s.cmd = some (.init na) → u.header na = s.header na) (ht : clockEdge c s = .next t) :
    ∃ v, clockEdge c u = .next v ∧ agreeButKeyNonce t v := by
  have ha := h.accessEffect c
  obtain ⟨k, n, rfl⟩ := h
  replace ha := ha.withPort (portOut c s)
  rcases clockEdge_cases ht with ⟨hr, rfl⟩ | ⟨hr, hc, rfl⟩ | ⟨hr, i, hc, hl, rfl⟩ | ⟨hr, i, w, hc, hl, hw, rfl⟩
  · exact ⟨_, clockEdge_of_rst hr _, Oct.zero, Quad.zero, rfl⟩
  · exact ⟨_, clockEdge_of_idle hr (by exact hc), ha.raiseIf _⟩
  · exact ⟨_, clockEdge_of_window hr (by exact hc) hl, (ha.tick i).raiseIf _⟩
  · have hh' : ∀ na, i = .init na →
        (Machine.accessEffect c (s.rekey k n)).header na = (Machine.accessEffect c s).header na := by
      rintro na rfl
      rw [header_accessEffect_of_busy hc, header_accessEffect_of_busy (by exact hc), hh na hc]
    obtain ⟨v, hv, hwv⟩ := ha.release.exec hh' hw
    refine ⟨v.raiseIf (accessError c s), ?_, hwv.raiseIf _⟩
    exact (clockEdge_of_last (s := s.rekey k n) hr hc hl).trans (congrArg (mapNext _) hv)

/-- With a command other than ZEROIZE in progress KEY after a clock cycle is its reset value or what it was. -/
theorem clockEdge_key_of_busy {c : Cycle} {s t : State} {i : Instr} (hc : s.cmd = some i) (hi : i ≠ .zeroize)
    (h : clockEdge c s = .next t) : t.key = if c.rst then Oct.zero else s.key := by
  cases hr : c.rst with
  | true => rw [clockEdge_of_rst hr] at h; cases h; rfl
  | false =>
    obtain ⟨hk, -⟩ := clockEdge_key_nonce_of_busy hr hc hi h
    exact hk

/-- Settles O50: with no INIT in progress no header is loaded, and INIT with NA = 1 loads the same one whatever NONCE
holds, and keeps KEY. -/
theorem onlyInitReadsKeyAndNonce : Obligations.OnlyInitReadsKeyAndNonce := by
  refine ⟨fun s t k n hc ht => ?_, fun s t n hc ht => ?_⟩
  · have h : agreeButKeyNonce s { s with key := k, nonce := n } := ⟨k, n, rfl⟩
    obtain ⟨u, hu, k', n', rfl⟩ := h.popHost.clockEdge (fun na hna => absurd (by simpa using hna) (hc na)) ht
    exact ⟨_, hu, rfl⟩
  · have h : agreeButKeyNonce s { s with nonce := n } := ⟨s.key, n, rfl⟩
    have hh : ∀ na, s.popHost.cmd = some (.init na) →
        { s with nonce := n }.popHost.header na = s.popHost.header na := by
      intro na hna
      rw [State.popHost_cmd, hc] at hna
      cases hna
      simp [State.header, State.keyBytes]
    obtain ⟨u, hu, k', n', rfl⟩ := h.popHost.clockEdge hh ht
    have hk : k' = t.key := by
      have hkt := clockEdge_key_of_busy (i := .init true) (by simpa using hc) nofun ht
      have hku := clockEdge_key_of_busy (i := .init true) (by simpa using hc) nofun hu
      simpa [State.rekey, hkt] using hku
    exact ⟨_, hu, by rw [hk]; rfl⟩

end Sys2Proof.Machine

/-! The register window (spec/20_memory.md R63 to R68): where each register is, what a refused access does, what a read
returns, and what a write of an input register changes. -/

namespace Sys2Proof.Machine

/-! ### The address map -/

/-- Word k of a group of registers is at base + 4k, which fits the eight bits of addr_i (R63). -/
theorem toNat_groupOffset {base k : Nat} (h : base + 4 * k < 256) :
    (BitVec.ofNat 8 (base + 4 * k)).toNat = base + 4 * k := by
  rw [BitVec.toNat_ofNat]
  exact Nat.mod_eq_of_lt h

theorem toNat_offsetOf_key (k : Fin 8) : (offsetOf (.key k)).toNat = 0x20 + 4 * k.val :=
  toNat_groupOffset (by omega)
theorem toNat_offsetOf_nonce (k : Fin 4) : (offsetOf (.nonce k)).toNat = 0x40 + 4 * k.val :=
  toNat_groupOffset (by omega)
theorem toNat_offsetOf_din (k : Fin 4) : (offsetOf (.din k)).toNat = 0x50 + 4 * k.val :=
  toNat_groupOffset (by omega)
theorem toNat_offsetOf_tagin (k : Fin 4) : (offsetOf (.tagin k)).toNat = 0x60 + 4 * k.val :=
  toNat_groupOffset (by omega)
theorem toNat_offsetOf_out (k : Fin 8) : (offsetOf (.out k)).toNat = 0x80 + 4 * k.val :=
  toNat_groupOffset (by omega)
theorem toNat_offsetOf_stateWord (k : Fin 12) : (offsetOf (.stateWord k)).toNat = 0xC0 + 4 * k.val :=
  toNat_groupOffset (by omega)

/-- The register of a group that the map finds at an aligned offset of the group's range has that offset (R63). -/
theorem groupOffset_eq {a : BitVec 8} {base : Nat} (h4 : a.toNat % 4 = 0) (hb : base % 4 = 0) (hle : base ≤ a.toNat) :
    BitVec.ofNat 8 (base + 4 * ((a.toNat - base) / 4)) = a := by
  have hn : base + 4 * ((a.toNat - base) / 4) = a.toNat := by omega
  rw [hn, BitVec.ofNat_toNat, BitVec.setWidth_eq]

/-- A register is reached at its own offset alone (R63). -/
theorem offsetOf_of_regAt {p : Params} {a : BitVec 8} {r : Reg} (h : regAt p a = some r) : offsetOf r = a := by
  simp only [regAt, regAtNat, ite_eq_iff, dite_eq_iff] at h
  obtain ⟨-, ⟨⟩⟩ | ⟨h4, ⟨hid, ⟨⟩⟩ | ⟨-, ⟨hcmd, ⟨⟩⟩ | ⟨-, ⟨hstatus, ⟨⟩⟩ | ⟨-, ⟨hcode, ⟨⟩⟩ | ⟨-, ⟨hirq, ⟨⟩⟩ | ⟨-,
    ⟨hkey, ⟨⟩⟩ | ⟨-, ⟨hnonce, ⟨⟩⟩ | ⟨-, ⟨hdin, ⟨⟩⟩ | ⟨-, ⟨htag, ⟨⟩⟩ | ⟨-, ⟨hout, ⟨⟩⟩ | ⟨-, ⟨hstate, ⟨⟩⟩ | ⟨-, ⟨⟩⟩⟩⟩⟩⟩⟩⟩⟩⟩⟩⟩⟩ := h
  · exact BitVec.eq_of_toNat_eq hid.symm
  · exact BitVec.eq_of_toNat_eq hcmd.symm
  · exact BitVec.eq_of_toNat_eq hstatus.symm
  · exact BitVec.eq_of_toNat_eq hcode.symm
  · exact BitVec.eq_of_toNat_eq hirq.symm
  · exact groupOffset_eq (not_not.mp h4) rfl hkey.1
  · exact groupOffset_eq (not_not.mp h4) rfl hnonce.1
  · exact groupOffset_eq (not_not.mp h4) rfl hdin.1
  · exact groupOffset_eq (not_not.mp h4) rfl htag.1
  · exact groupOffset_eq (not_not.mp h4) rfl hout.1
  · exact groupOffset_eq (not_not.mp h4) rfl hstate.2.1

/-- The map is exact: a register is at its offset and nowhere else, the STATE window where it exists (R63, R64). -/
theorem regAt_eq_some_iff (p : Params) (a : BitVec 8) (r : Reg) :
    regAt p a = some r ↔ offsetOf r = a ∧ ((∃ k, r = .stateWord k) → p.debug = true) := by
  constructor
  · intro h
    refine ⟨offsetOf_of_regAt h, ?_⟩
    rintro ⟨k, rfl⟩
    exact debug_of_regAt_stateWord h
  · rintro ⟨rfl, h⟩
    exact regAt_offsetOf p r fun k hk => h ⟨k, hk⟩

/-- Settles O28: the offsets are `offsetOf`, and the map finds a register there alone by `regAt_eq_some_iff`. -/
theorem addressMapIsExact : Obligations.AddressMapIsExact :=
  ⟨⟨rfl, rfl, rfl, rfl, rfl, toNat_offsetOf_key, toNat_offsetOf_nonce, toNat_offsetOf_din, toNat_offsetOf_tagin,
    toNat_offsetOf_out, toNat_offsetOf_stateWord⟩, regAt_eq_some_iff⟩

/-! ### Refused accesses -/

/-- Every register is aligned and in one of the ranges of the map (R63). -/
theorem offsetOf_range (r : Reg) :
    (offsetOf r).toNat % 4 = 0 ∧
      ((offsetOf r).toNat < 0x14 ∨ (0x20 ≤ (offsetOf r).toNat ∧ (offsetOf r).toNat < 0x70) ∨
        (0x80 ≤ (offsetOf r).toNat ∧ (offsetOf r).toNat < 0xA0) ∨
        ((∃ k, r = .stateWord k) ∧ 0xC0 ≤ (offsetOf r).toNat ∧ (offsetOf r).toNat < 0xF0)) := by
  cases r with
  | key k => rw [toNat_offsetOf_key]; omega
  | nonce k => rw [toNat_offsetOf_nonce]; omega
  | din k => rw [toNat_offsetOf_din]; omega
  | tagin k => rw [toNat_offsetOf_tagin]; omega
  | out k => rw [toNat_offsetOf_out]; omega
  | stateWord k =>
    rw [toNat_offsetOf_stateWord]
    exact ⟨by omega, .inr (.inr (.inr ⟨⟨k, rfl⟩, by omega, by omega⟩))⟩
  | _ => exact ⟨rfl, .inl (by decide)⟩

/-- The offsets at which no register is mapped: misaligned, in a reserved range, or in the STATE window with
P_DEBUG = 0 (R64, R65, R68). -/
theorem regAt_eq_none {p : Params} {a : BitVec 8}
    (h : a.toNat % 4 ≠ 0 ∨ (0x14 ≤ a.toNat ∧ a.toNat ≤ 0x1F) ∨ (0x70 ≤ a.toNat ∧ a.toNat ≤ 0x7F) ∨
      (0xA0 ≤ a.toNat ∧ a.toNat ≤ 0xBF) ∨ 0xF0 ≤ a.toNat ∨
      (p.debug = false ∧ 0xC0 ≤ a.toNat ∧ a.toNat ≤ 0xEF)) : regAt p a = none := by
  cases hr : regAt p a with
  | none => rfl
  | some r =>
    obtain ⟨rfl, hdebug⟩ := (regAt_eq_some_iff p a r).mp hr
    obtain ⟨h4, hlow | hinput | hout | ⟨hstate, hwindow⟩⟩ := offsetOf_range r
    · omega
    · omega
    · omega
    · simp only [hdebug hstate, Bool.true_eq_false, false_and, or_false] at h
      omega

/-- An access that reaches no register gives err_o = 1 and rdata_o = 0 (R65, R68). -/
theorem portOut_of_refused {c : Cycle} {s : State} (hq : c.req = true) (hr : c.rst = false)
    (ha : regAt s.params c.addr = none) : portOut c s = { rdata := some 0, err := true } := by
  simp [portOut, hq, hr, ha]

/-- An access that reaches no register raises ADDR_ERR and changes nothing else (R247). -/
theorem busAccess_of_refused {c : Cycle} {s : State} (hq : c.req = true) (ha : regAt s.params c.addr = none) :
    busAccess c s = s.raise .addrErr := by
  simp [busAccess, accessEffect, accessError, hq, ha]

/-- Settles O29: no register is mapped at the offsets named (`regAt_eq_none`), so the access is refused. -/
theorem refusedAccessRaisesAddrErr : Obligations.RefusedAccessRaisesAddrErr := by
  intro s c hq hr h
  have ha : regAt s.params c.addr = none := regAt_eq_none h
  rw [portOut_of_refused hq hr ha, busAccess_of_refused hq ha]
  exact ⟨rfl, fun _ => rfl, rfl⟩

/-! ### Reads -/

/-- A read of a mapped register gives err_o = 0 and its BusRead value (R66). -/
theorem portOut_read {s : State} {a : BitVec 8} {r : Reg} (h : regAt s.params a = some r) :
    portOut (Cycle.read a) s = { rdata := some (busRead r s), err := false } := by
  simp [portOut, Cycle.read, h]

/-- A read of a mapped register has no side effect (R66). -/
theorem busAccess_read {s : State} {a : BitVec 8} {r : Reg} (h : regAt s.params a = some r) :
    busAccess (Cycle.read a) s = s := by
  simp [busAccess, accessEffect, accessError, Cycle.read, h]

/-- A one-bit field as a number: its place value where the bit is set. -/
theorem bitWord_shiftLeft (b : Bool) (k : Nat) : bitWord b <<< k = if b then (1 : Word) <<< k else 0 := by
  cases b <;> simp [bitWord]

/-- What reads 0 while BUSY = 1 reads its own value otherwise (R282). -/
theorem ite_busy_zero (s : State) (w : Word) :
    (s.cmd = none → (if s.busy then 0 else w) = w) ∧ (s.cmd ≠ none → (if s.busy then 0 else w) = 0) := by
  refine ⟨fun h => ?_, fun h => ?_⟩
  · simp [h]
  · obtain ⟨i, hi⟩ := Option.ne_none_iff_exists'.mp h
    simp [hi]

/-- Settles O30: a mapped read has no effect, and each register's value is its row of R66, the fields of STATUS taken
one by one. -/
theorem readsReturnTheRegister : Obligations.ReadsReturnTheRegister := by
  intro s a r h
  refine ⟨portOut_read h, busAccess_read h, ?id, ?writeOnly, ?out, ?state, ?status, ?errCode, ?irqEn⟩
  case id => rintro rfl; rfl
  case writeOnly => rintro (rfl | ⟨k, rfl⟩ | ⟨k, rfl⟩ | ⟨k, rfl⟩ | ⟨k, rfl⟩) <;> rfl
  case out => rintro k rfl; exact ite_busy_zero s _
  case state => rintro k rfl; exact ite_busy_zero s _
  case status =>
    rintro rfl
    simp only [busRead, State.statusWord, bitWord_shiftLeft]
    refine congrArg₂ (· ||| ·) (congrArg₂ (· ||| ·) (congrArg₂ (· ||| ·) ?flags ?phase) ?mode) ?debug
    case flags => rfl
    case phase => cases s.phase <;> rfl
    case mode => cases s.mode <;> rfl
    case debug => rfl
  case errCode => rintro rfl; simp only [busRead, State.errCodeWord]; cases s.errCode <;> rfl
  case irqEn => rintro rfl; simp only [busRead, State.irqEnWord, bitWord_shiftLeft]; rfl

/-! ### Writes of the input registers and the debug window -/

/-- With no command in progress a write that is guarded by BUSY takes its effect and raises nothing (R67). -/
theorem busAccess_write_guarded {s t : State} {r : Reg} {v : Word} (hc : s.cmd = none)
    (hmapped : ∀ k, r = .stateWord k → s.params.debug = true)
    (heffect : writeEffect r v s = if s.busy then s else t)
    (herror : writeError r v s = if s.busy then some .busyErr else none) :
    busAccess (Cycle.write (offsetOf r) v) s = t := by
  obtain ⟨he, hn⟩ := access_write r v s hmapped
  rw [busAccess, he, hn, heffect, herror]
  simp [hc]

/-- Settles O33: each of these writes is guarded by BUSY and sets one word of its group. -/
theorem inputWritesSetOneWord : Obligations.InputWritesSetOneWord := by
  intro s v hc
  refine ⟨fun k => ⟨s.key.set k v, ?_, s.key.get_set_self k v, fun j hj => s.key.get_set_of_ne hj v⟩,
    fun k => ⟨s.nonce.set k v, ?_, s.nonce.get_set_self k v, fun j hj => s.nonce.get_set_of_ne hj v⟩,
    fun k => ⟨s.din.set k v, ?_, s.din.get_set_self k v, fun j hj => s.din.get_set_of_ne hj v⟩,
    fun k => ⟨s.tagin.set k v, ?_, s.tagin.get_set_self k v, fun j hj => s.tagin.get_set_of_ne hj v⟩,
    fun hdebug k => ⟨s.sponge.set k v, ?_, s.sponge.get_set_self k v, fun j hj => s.sponge.get_set_of_ne hj v⟩⟩
  · exact busAccess_write_guarded hc nofun rfl rfl
  · exact busAccess_write_guarded hc nofun rfl rfl
  · exact busAccess_write_guarded hc nofun rfl rfl
  · exact busAccess_write_guarded hc nofun rfl rfl
  · exact busAccess_write_guarded hc (fun _ _ => hdebug) rfl rfl

end Sys2Proof.Machine

/-! The command word (spec/30_encoding.md R90 to R102): a word with no reserved bit is its three fields, so decoding and
encoding are inverse, and the words that decode are the ones R96 counts. -/

namespace Sys2Proof.Machine

/-! ### The fields of a word -/

/-- Every bit of a packed word: OP from bit 0, LEN from bit 8, NA at bit 16 (R90). -/
theorem packWord_getLsbD (op len : BitVec 4) (na : Bool) (n : Nat) :
    (packWord op len na).getLsbD n =
      (decide (n < 32) && op.getLsbD n || decide (8 ≤ n ∧ n < 32) && len.getLsbD (n - 8) ||
        decide (n = 16) && na) := by
  have hna : (if na then 0x00010000 else 0 : Word) = bitWord na <<< 16 := (bitWord_shiftLeft na 16).symm
  rw [packWord, hna, BitVec.getLsbD_or, BitVec.getLsbD_or, BitVec.getLsbD_setWidth, field_getLsbD,
    flag_getLsbD na (by decide)]

@[simp] theorem opField_packWord (op len : BitVec 4) (na : Bool) : opField (packWord op len na) = op := by
  refine BitVec.eq_of_getLsbD_eq fun n hn => ?_
  rw [opField, BitVec.getLsbD_extractLsb', packWord_getLsbD]
  interval_cases n <;> simp

@[simp] theorem lenField_packWord (op len : BitVec 4) (na : Bool) : lenField (packWord op len na) = len := by
  refine BitVec.eq_of_getLsbD_eq fun n hn => ?_
  rw [lenField, BitVec.getLsbD_extractLsb', packWord_getLsbD]
  interval_cases n <;> simp

@[simp] theorem naField_packWord (op len : BitVec 4) (na : Bool) : naField (packWord op len na) = na := by
  rw [naField, packWord_getLsbD]; simp

/-- The three fields hold every bit of a word but the reserved ones (R90, R95). -/
theorem packWord_fields (w : Word) : packWord (opField w) (lenField w) (naField w) = w &&& ~~~reservedMask := by
  refine BitVec.eq_of_getLsbD_eq fun n hn => ?_
  rw [packWord_getLsbD, opField, lenField, naField, reservedMask]
  interval_cases n <;> simp

/-- So a word with every reserved bit zero is packed from its fields (R95). -/
theorem packWord_fields_of_reserved {w : Word} (h : w &&& reservedMask = 0) :
    packWord (opField w) (lenField w) (naField w) = w := by
  calc packWord (opField w) (lenField w) (naField w)
      _ = w &&& ~~~reservedMask ||| w &&& reservedMask := by rw [packWord_fields, h]; exact BitVec.or_zero.symm
      _ = w := by rw [← BitVec.and_or_distrib_left]; exact BitVec.and_allOnes

@[simp] theorem packWord_and_reservedMask (op len : BitVec 4) (na : Bool) :
    packWord op len na &&& reservedMask = 0 := by
  have h := packWord_fields (packWord op len na)
  rw [opField_packWord, lenField_packWord, naField_packWord] at h
  rw [h, BitVec.and_assoc, BitVec.and_comm (~~~_)]
  simp

/-! ### Decoding and encoding -/

/-- The word of a command that the implementation has passes the tests of R96, and its OP selects the command. -/
theorem decode_encode {p : Params} {i : Instr} (h : i.wellFormed p = true) : decode p (encode i) = some i := by
  unfold decode
  cases i with
  | permute =>
    have hdebug : p.debug = true := h
    simp [encode, ofFields, hdebug]
  | _ => simp [encode, ofFields]

/-- What the tests of R96 leave of a word that decodes. -/
theorem fields_of_decode {p : Params} {w : Word} {i : Instr} (h : decode p w = some i) :
    w &&& reservedMask = 0 ∧
    (lenField w ≠ 0 → opField w = 0x3 ∨ opField w = 0x5 ∨ opField w = 0x7) ∧
    (naField w = true → opField w = 0x1) ∧
    ofFields (opField w) (lenField w) (naField w) = some i := by
  unfold decode at h
  split_ifs at h with hreserved hop hdebug hlen hna
  rw [not_and_not_right] at hlen hna
  exact ⟨not_not.mp hreserved, hlen, hna, h⟩

/-- A command is packed from the fields it was selected by, where the fields it does not take are zero (R92 to R94). -/
theorem encode_of_ofFields {op len : BitVec 4} {na : Bool} {i : Instr} (h : ofFields op len na = some i)
    (hlen : len ≠ 0 → op = 0x3 ∨ op = 0x5 ∨ op = 0x7) (hna : na = true → op = 0x1) :
    encode i = packWord op len na := by
  unfold ofFields at h
  split at h <;> cases h
  all_goals
    rename_i hop
    obtain ⟨-, rfl⟩ := BitVec.toNat_eq_nat.mp hop
    simp_all [encode]

/-- A word that decodes is packed from its fields, as its command's word is (R95, R96). -/
theorem encode_of_decode {p : Params} {w : Word} {i : Instr} (h : decode p w = some i) : encode i = w := by
  obtain ⟨hreserved, hlen, hna, hfields⟩ := fields_of_decode h
  rw [encode_of_ofFields hfields hlen hna, packWord_fields_of_reserved hreserved]

/-- Decoding and encoding are inverse on the commands the implementation has (R96). -/
theorem decode_eq_some_iff {p : Params} {w : Word} {i : Instr} :
    decode p w = some i ↔ encode i = w ∧ i.wellFormed p = true := by
  constructor
  · exact fun h => ⟨encode_of_decode h, wellFormed_of_decode h⟩
  · rintro ⟨rfl, h⟩
    exact decode_encode h

/-- Settles O2: the word passes every test and its fields are the command's, `decode_encode`. -/
theorem decodeInvertsEncode : Obligations.DecodeInvertsEncode := fun _ _ => decode_encode

/-- Settles O3, by `decode_eq_some_iff`. -/
theorem decodedWordIsEncoding : Obligations.DecodedWordIsEncoding := fun _ _ _ => decode_eq_some_iff.mp

/-! ### The legal words, counted -/

/-- The word of a final command by its LEN, as the number R96 counts (R93). -/
theorem packWord_len_eq_ofNat (op len : BitVec 4) :
    packWord op len false = BitVec.ofNat 32 (op.toNat + 256 * len.toNat) := by
  revert op len; decide

theorem legalWords_nodup (p : Params) : (legalWords p).Nodup := by
  unfold legalWords; cases p.debug <;> decide

theorem legalWords_length (p : Params) : (legalWords p).length = 54 + (if p.debug then 1 else 0) := by
  unfold legalWords; cases p.debug <;> rfl

/-- The list of R96 holds the words of the commands that the implementation has, and no other word. -/
theorem mem_legalWords_iff (p : Params) (w : Word) :
    w ∈ legalWords p ↔ ∃ i, encode i = w ∧ i.wellFormed p = true := by
  simp only [legalWords, List.mem_append, List.mem_flatMap, List.mem_range, List.mem_cons, List.not_mem_nil, or_false,
    List.mem_ite_nil_right]
  constructor
  · rintro (((rfl | rfl | rfl | rfl | rfl | rfl) | ⟨n, hn, hfinal⟩) | ⟨hdebug, rfl⟩)
    · exact ⟨.init false, rfl, rfl⟩
    · exact ⟨.init true, rfl, rfl⟩
    · exact ⟨.encBlock, rfl, rfl⟩
    · exact ⟨.decBlock, rfl, rfl⟩
    · exact ⟨.hashBlock, rfl, rfl⟩
    · exact ⟨.zeroize, rfl, rfl⟩
    · obtain ⟨len, rfl⟩ : ∃ len : BitVec 4, len.toNat = n := ⟨BitVec.ofNatLT n hn, rfl⟩
      obtain rfl | rfl | rfl := hfinal
      · exact ⟨.encFinal len, packWord_len_eq_ofNat 3 len, rfl⟩
      · exact ⟨.decFinal len, packWord_len_eq_ofNat 5 len, rfl⟩
      · exact ⟨.hashFinal len, packWord_len_eq_ofNat 7 len, rfl⟩
    · exact ⟨.permute, rfl, hdebug⟩
  · rintro ⟨i, rfl, h⟩
    cases i with
    | init na => left; left; cases na <;> decide
    | encBlock | decBlock | hashBlock | zeroize => left; left; decide
    | encFinal len => exact .inl (.inr ⟨len.toNat, len.isLt, .inl (packWord_len_eq_ofNat 3 len)⟩)
    | decFinal len => exact .inl (.inr ⟨len.toNat, len.isLt, .inr (.inl (packWord_len_eq_ofNat 5 len))⟩)
    | hashFinal len => exact .inl (.inr ⟨len.toNat, len.isLt, .inr (.inr (packWord_len_eq_ofNat 7 len))⟩)
    | permute => exact .inr ⟨h, rfl⟩

/-- Settles O4: a word decodes when it is a command's word (`decode_eq_some_iff`), and those words are the list
(`mem_legalWords_iff`). -/
theorem legalWordsAreCounted : Obligations.LegalWordsAreCounted := by
  refine fun p => ⟨legalWords_nodup p, legalWords_length p, fun w => ?_⟩
  simp only [Option.isSome_iff_exists, decode_eq_some_iff, mem_legalWords_iff]

/-! ### The examples of R102 -/

/-- PERMUTE's OP is ILLEGAL without P_DEBUG, whatever the other fields (R96, spec/40_permutation.md R131). -/
theorem decode_eq_none_of_no_debug {p : Params} {w : Word} (hop : opField w = 0x9) (hdebug : p.debug = false) :
    decode p w = none := by
  simp [decode, hop, hdebug]

/-- Settles O1: the words of commands by `decode_encode`; 0x00000D02 has LEN without a final OP and 0x00000010 a
reserved bit, so each fails its test of R96 by computation. -/
theorem exampleWordsDecode : Obligations.ExampleWordsDecode := by
  intro p
  exact ⟨rfl, decode_encode (i := .encFinal 13) rfl, rfl, decode_encode (i := .init true) rfl, rfl,
    decode_encode (i := .hashFinal 15) rfl, rfl, rfl, decode_encode (i := .permute), decode_eq_none_of_no_debug rfl⟩

end Sys2Proof.Machine

/-! The steps of the permutation, word by word (spec/40_permutation.md R120 to R127). -/

namespace Sys2Proof

theorem Quad.get_map (f : Word → Word) (q : Quad) (i : Fin 4) : (q.map f).get i = f (q.get i) := by
  fin_cases i <;> rfl

theorem Quad.get_map3 (f : Word → Word → Word → Word) (a b c : Quad) (i : Fin 4) :
    (Quad.map3 f a b c).get i = f (a.get i) (b.get i) (c.get i) := by
  fin_cases i <;> rfl

end Sys2Proof

namespace Sys2Proof.Machine

/-- Rotations add up, modulo the width of a word (spec/00_scope.md R8). -/
theorem rotr32_rotr32 (x : Word) {m n : Nat} (hm : m < 32) (hn : n < 32) :
    rotr32 (rotr32 x m) n = rotr32 x ((m + n) % 32) := by
  refine BitVec.eq_of_getLsbD_eq fun i hi => ?_
  have hsum : ((i + n) % 32 + m) % 32 = (i + (m + n) % 32) % 32 := by omega
  rw [rotr32_getLsbD _ n hn i hi, rotr32_getLsbD _ m hm _ (Nat.mod_lt _ (by decide)),
    rotr32_getLsbD _ _ (Nat.mod_lt _ (by decide)) i hi, hsum]

@[simp] theorem rotr32_zero (x : Word) : rotr32 x 0 = x := by simp [rotr32]

/-! ### The three words of a lane, one in each plane (spec/00_scope.md R11) -/

theorem Sponge.get_plane0 (S : Sponge) (i : Fin 4) (h : i.val < 12) : S.get ⟨i.val, h⟩ = S.p0.get i := by
  simp [Sponge.get, Nat.mod_eq_of_lt i.isLt]
theorem Sponge.get_plane1 (S : Sponge) (i : Fin 4) (h : i.val + 4 < 12) : S.get ⟨i.val + 4, h⟩ = S.p1.get i := by
  simp [Sponge.get, Nat.mod_eq_of_lt i.isLt]
theorem Sponge.get_plane2 (S : Sponge) (i : Fin 4) (h : i.val + 8 < 12) : S.get ⟨i.val + 8, h⟩ = S.p2.get i := by
  have hplane0 : ¬ i.val + 8 < 4 := by omega
  have hlane : (i.val + 8) % 4 = i.val := by omega
  simp [Sponge.get, hplane0, hlane]

/-! ### θ (R121) -/

theorem parity_get (S : Sponge) (i : Fin 4) :
    (parity S).get i = S.get ⟨i.val, by omega⟩ ^^^ S.get ⟨i.val + 4, by omega⟩ ^^^ S.get ⟨i.val + 8, by omega⟩ := by
  rw [S.get_plane0, S.get_plane1, S.get_plane2, parity, Quad.get_xor, Quad.get_xor]

theorem thetaEffect_get (p : Quad) (i : Fin 4) :
    (thetaEffect p).get i = rotr32 (p.get i) 18 ^^^ rotr32 (rotr32 (p.get i) 18) 9 := by
  simp only [thetaEffect, Quad.get_xor, Quad.get_map]

/-- θ's two rotations in a row are one by 27 places. -/
theorem rotr32_rotr32_18_9 (x : Word) : rotr32 (rotr32 x 18) 9 = rotr32 x 27 :=
  rotr32_rotr32 x (by decide) (by decide)

/-- Every word is XORed with the effect of the lane before its own; `theta` writes the twelve words out. -/
theorem theta_get (S : Sponge) (j : Fin 12) :
    (theta S).get j = S.get j ^^^ (thetaEffect (parity S)).get ⟨(j.val + 3) % 4, by omega⟩ := by
  fin_cases j <;> rfl

/-- Settles O10: the word by `theta_get`, `thetaEffect_get` and `parity_get`, the second form of e by
`rotr32_rotr32_18_9`, and the example by evaluation. -/
theorem thetaMixesColumns : Obligations.ThetaMixesColumns := by
  refine ⟨fun S j => ⟨?_, fun i => ?_⟩, by decide, by decide⟩
  · rw [theta_get, thetaEffect_get, parity_get]
  · simp only [rotr32_rotr32_18_9]

/-! ### The plane shifts (R122, R125) and ι (R123) -/

/-- ι writes one word of S. -/
theorem iota_eq_set (r : Nat) (S : Sponge) : iota r S = S.set 0 (S.get 0 ^^^ roundConstant r) := rfl

theorem rhoWest_eq_swaps (S : Sponge) : rhoWest S = swapWords 7 6 (swapWords 7 5 (swapWords 7 4 S)) := rfl

theorem rhoEast_eq_swaps (S : Sponge) : rhoEast S = swapWords 9 11 (swapWords 8 10 S) := rfl

/-- Settles O11: the shifts are their swaps, `rhoWest_eq_swaps` and `rhoEast_eq_swaps`, and ι sets S[0] alone,
`iota_eq_set`. -/
theorem shiftsAndConstantMoveTheNamedWords : Obligations.ShiftsAndConstantMoveTheNamedWords := by
  refine fun S => ⟨⟨rfl, rfl, rfl, rfl, rfl, rfl, rhoWest_eq_swaps S⟩, fun r => ?_, rfl, rfl, rhoEast_eq_swaps S⟩
  rw [iota_eq_set]
  exact ⟨Sponge.get_set_self S 0 _, fun k hk => Sponge.get_set_of_ne S hk _⟩

/-! ### χ (R124) -/

/-- Settles O12: a plane of χ is `Quad.map3` of that plane's row, and the lane's three words are the three planes'. -/
theorem chiUsesCapturedInputs : Obligations.ChiUsesCapturedInputs := by
  intro S i
  simp only [Sponge.get_plane0, Sponge.get_plane1, Sponge.get_plane2, chi, Quad.get_map3]
  exact ⟨rfl, rfl, rfl⟩

/-! ### The rounds (R126, R127) -/

/-- The first n rounds, in the order of their numbers. -/
theorem permRounds_eq_foldl (n : Nat) (S : Sponge) :
    permRounds n S = (List.range n).foldl (fun T r => permRound r T) S := by
  induction n with
  | zero => rfl
  | succ n ih => rw [List.range_succ, List.foldl_append, ← ih]; rfl

/-- Settles O13: the order of the rounds is `permRounds_eq_foldl`; the constants and the two examples are evaluated. -/
theorem permuteIsTwelveRounds : Obligations.PermuteIsTwelveRounds :=
  ⟨by decide, fun _ _ => rfl, permRounds_eq_foldl 12, by decide +kernel, by decide +kernel⟩

end Sys2Proof.Machine

/-! The permutation is a bijection because each step of a round is one (spec/40_permutation.md R128): θ, whose
thirty-second power is the identity; ρ-west, whose fourth power is; ι, ρ-east and the bare χ, each its own inverse; and
the rotations inside χ, undone by rotating on to the full 32 places. -/

namespace Sys2Proof

theorem Quad.map_xor {f : Word → Word} (hf : ∀ x y, f (x ^^^ y) = f x ^^^ f y) (a b : Quad) :
    (a.xor b).map f = (a.map f).xor (b.map f) := by
  simp only [Quad.map, Quad.xor, hf]

theorem Quad.map_iterate (f : Word → Word) (k : Nat) : (Quad.map f)^[k] = Quad.map f^[k] := by
  induction k with
  | zero => rfl
  | succ k ih => rw [Function.iterate_succ, Function.iterate_succ, ih]; rfl

/-- What is XORed into both sides cancels. -/
theorem Quad.xor_xor_cancel (a d b : Quad) : (a.xor d).xor (d.xor b) = a.xor b := by
  rw [Quad.xor_assoc, ← d.xor_assoc, Quad.xor_self, Quad.zero_xor]

end Sys2Proof

namespace Sys2Proof.Machine

/-- A function of which some power is the identity is a bijection. -/
theorem bijective_of_iterate_eq_id {α : Type} {f : α → α} {n : Nat} (h : f^[n + 1] = id) : Function.Bijective f := by
  constructor
  · have hcomp : Function.Injective (f^[n] ∘ f) := by rw [← Function.iterate_succ, h]; exact Function.injective_id
    exact hcomp.of_comp
  · have hcomp : Function.Surjective (f ∘ f^[n]) := by
      rw [← Function.iterate_succ', h]; exact Function.surjective_id
    exact hcomp.of_comp

/-! ### θ -/

/-- A step of θ's shape: f of the column parities is XORed into every plane. -/
def xorColumns (f : Quad → Quad) (S : Sponge) : Sponge :=
  ⟨S.p0.xor (f (parity S)), S.p1.xor (f (parity S)), S.p2.xor (f (parity S))⟩

theorem theta_eq_xorColumns : theta = xorColumns (shiftLane ∘ thetaEffect) := rfl

/-- Of the three words XORed into a column two cancel in its parity. -/
theorem parity_xorColumns (f : Quad → Quad) (S : Sponge) :
    parity (xorColumns f S) = (parity S).xor (f (parity S)) := by
  generalize hd : f (parity S) = d
  calc parity (xorColumns f S)
      _ = ((S.p0.xor d).xor (S.p1.xor d)).xor (S.p2.xor d) := by rw [← hd]; rfl
      _ = (S.p0.xor S.p1).xor (S.p2.xor d) := by rw [S.p1.xor_comm d, Quad.xor_xor_cancel]
      _ = (parity S).xor d := (Quad.xor_assoc ..).symm

/-- Two such steps are one with f ∘ f, where f respects XOR: the first f of the parities cancels. -/
theorem xorColumns_xorColumns {f : Quad → Quad} (hf : Function.Semiconj₂ f Quad.xor Quad.xor) (S : Sponge) :
    xorColumns f (xorColumns f S) = xorColumns (f ∘ f) S := by
  have hd : f (parity (xorColumns f S)) = (f (parity S)).xor (f (f (parity S))) := by rw [parity_xorColumns, hf.eq]
  rw [xorColumns, hd]
  simp only [xorColumns, Quad.xor_xor_cancel, Function.comp]

theorem xorColumns_iterate {f : Quad → Quad} (hf : Function.Semiconj₂ f Quad.xor Quad.xor) (j : Nat) :
    (xorColumns f)^[2 ^ j] = xorColumns f^[2 ^ j] := by
  induction j with
  | zero => rfl
  | succ j ih =>
    rw [pow_succ, Function.iterate_mul, ih, Function.iterate_mul]
    exact funext (xorColumns_xorColumns (hf.iterate _))

/-- A word turned m places XOR the word turned n places. -/
def twoTurns (m n : Nat) (x : Word) : Word := rotr32 x m ^^^ rotr32 x n

theorem thetaEffect_eq_map : thetaEffect = Quad.map (twoTurns 18 27) := by
  funext p
  simp only [thetaEffect, Quad.map, Quad.xor, twoTurns, rotr32_rotr32_18_9]

theorem twoTurns_xor {m n : Nat} (hm : m < 32) (hn : n < 32) (x y : Word) :
    twoTurns m n (x ^^^ y) = twoTurns m n x ^^^ twoTurns m n y := by
  rw [twoTurns, rotr32_xor x y m hm, rotr32_xor x y n hn, twoTurns, twoTurns]
  ac_rfl

/-- Squaring doubles both turns, since the two mixed terms are the same and cancel. -/
theorem twoTurns_twoTurns {m n : Nat} (hm : m < 32) (hn : n < 32) (x : Word) :
    twoTurns m n (twoTurns m n x) = twoTurns (2 * m % 32) (2 * n % 32) x := by
  calc twoTurns m n (twoTurns m n x)
      _ = (rotr32 x ((m + m) % 32) ^^^ rotr32 x ((n + m) % 32)) ^^^
          (rotr32 x ((n + m) % 32) ^^^ rotr32 x ((n + n) % 32)) := by
        rw [twoTurns, twoTurns, rotr32_xor _ _ m hm, rotr32_xor _ _ n hn, rotr32_rotr32 x hm hm,
          rotr32_rotr32 x hn hm, rotr32_rotr32 x hm hn, rotr32_rotr32 x hn hn, Nat.add_comm m n]
      _ = rotr32 x ((m + m) % 32) ^^^ rotr32 x ((n + n) % 32) := by
        rw [BitVec.xor_assoc, ← BitVec.xor_assoc (rotr32 x ((n + m) % 32)), BitVec.xor_self, BitVec.zero_xor]
      _ = twoTurns (2 * m % 32) (2 * n % 32) x := by rw [twoTurns, two_mul, two_mul]

theorem twoTurns_iterate {m n : Nat} (hm : m < 32) (hn : n < 32) (j : Nat) :
    (twoTurns m n)^[2 ^ j] = twoTurns (2 ^ j * m % 32) (2 ^ j * n % 32) := by
  induction j with
  | zero => rw [pow_zero, one_mul, one_mul, Nat.mod_eq_of_lt hm, Nat.mod_eq_of_lt hn, Function.iterate_one]
  | succ j ih =>
    have hdouble (k : Nat) : 2 ^ (j + 1) * k % 32 = 2 * (2 ^ j * k % 32) % 32 := by
      rw [pow_succ, mul_comm _ 2, mul_assoc, Nat.mul_mod_mod]
    rw [hdouble, hdouble, pow_succ, Function.iterate_mul, ih]
    exact funext (twoTurns_twoTurns (Nat.mod_lt _ (by decide)) (Nat.mod_lt _ (by decide)))

/-- 32 times 18 and 32 times 27 are both no turn at all, so the two terms cancel. -/
theorem thetaEffect_iterate (p : Quad) : thetaEffect^[2 ^ 5] p = Quad.zero := by
  have hzero (x : Word) : twoTurns 0 0 x = 0 := BitVec.xor_self
  rw [thetaEffect_eq_map, Quad.map_iterate, twoTurns_iterate (by decide) (by decide)]
  simp only [Quad.map, Quad.zero, Nat.reducePow, Nat.reduceMul, Nat.reduceMod, hzero]

theorem shiftLane_thetaEffect_xor : Function.Semiconj₂ (shiftLane ∘ thetaEffect) Quad.xor Quad.xor := by
  intro a b
  rw [thetaEffect_eq_map, Function.comp, Quad.map_xor (twoTurns_xor (by decide) (by decide))]
  rfl

theorem shiftLane_thetaEffect_iterate (p : Quad) : (shiftLane ∘ thetaEffect)^[2 ^ 5] p = Quad.zero := by
  have hcomm : Function.Commute shiftLane thetaEffect := fun _ => rfl
  rw [hcomm.comp_iterate, Function.comp, thetaEffect_iterate]
  exact Function.iterate_fixed rfl _

theorem theta_iterate : theta^[2 ^ 5] = id := by
  funext S
  rw [theta_eq_xorColumns, xorColumns_iterate shiftLane_thetaEffect_xor]
  simp only [xorColumns, shiftLane_thetaEffect_iterate, Quad.xor_zero, id]

theorem theta_bijective : Function.Bijective theta := bijective_of_iterate_eq_id (n := 31) theta_iterate

/-! ### The plane shifts and ι -/

theorem rhoWest_bijective : Function.Bijective rhoWest :=
  bijective_of_iterate_eq_id (n := 3) (funext fun _ => rfl)

theorem rhoEast_bijective : Function.Bijective rhoEast :=
  Function.Involutive.bijective fun _ => rfl

theorem iota_involutive (r : Nat) : Function.Involutive (iota r) := by
  intro S
  simp only [iota, BitVec.xor_assoc, BitVec.xor_self, BitVec.xor_zero]

/-! ### χ -/

/-- Planes 1 and 2 with every word turned. -/
def turnPlanes (m n : Nat) (S : Sponge) : Sponge :=
  ⟨S.p0, S.p1.map (rotr32 · m), S.p2.map (rotr32 · n)⟩

theorem turnPlanes_zero (S : Sponge) : turnPlanes 0 0 S = S := by
  simp only [turnPlanes, Quad.map, rotr32_zero]

theorem turnPlanes_turnPlanes {j k m n : Nat} (hj : j < 32) (hk : k < 32) (hm : m < 32) (hn : n < 32) (S : Sponge) :
    turnPlanes m n (turnPlanes j k S) = turnPlanes ((j + m) % 32) ((k + n) % 32) S := by
  simp only [turnPlanes, Quad.map, rotr32_rotr32 _ hj hm, rotr32_rotr32 _ hk hn]

/-- Turning on by the rest of the 32 places undoes a turn, in either order. -/
theorem turnPlanes_bijective {m n : Nat} (hm : m < 32) (hn : n < 32) : Function.Bijective (turnPlanes m n) := by
  have hm' : (32 - m) % 32 < 32 := Nat.mod_lt _ (by decide)
  have hn' : (32 - n) % 32 < 32 := Nat.mod_lt _ (by decide)
  refine Function.bijective_iff_has_inverse.mpr
    ⟨turnPlanes ((32 - m) % 32) ((32 - n) % 32), fun S => ?_, fun S => ?_⟩
  · have hm0 : (m + (32 - m) % 32) % 32 = 0 := by omega
    have hn0 : (n + (32 - n) % 32) % 32 = 0 := by omega
    rw [turnPlanes_turnPlanes hm hn hm' hn', hm0, hn0, turnPlanes_zero]
  · have hm0 : ((32 - m) % 32 + m) % 32 = 0 := by omega
    have hn0 : ((32 - n) % 32 + n) % 32 = 0 := by omega
    rw [turnPlanes_turnPlanes hm' hn' hm hn, hm0, hn0, turnPlanes_zero]

/-- χ of one word from the lane's three words, without the rotations: each row is this one, the words named in turn. -/
def chiWord (a b c : Word) : Word := a ^^^ (c &&& ~~~b)

/-- χ without its rotations. -/
def chiBare (S : Sponge) : Sponge :=
  ⟨Quad.map3 chiWord S.p0 S.p1 S.p2, Quad.map3 chiWord S.p1 S.p2 S.p0, Quad.map3 chiWord S.p2 S.p0 S.p1⟩

theorem chi_eq_comp : chi = turnPlanes 31 24 ∘ chiBare ∘ turnPlanes 0 21 := by
  funext S
  simp only [chi, chiRow0, chiRow1, chiRow2, Function.comp, turnPlanes, chiBare, chiWord, Quad.map, Quad.map3,
    rotr32_zero, BitVec.xor_comm (_ &&& _)]

/-- χ on the three bits of a column is its own inverse (eight cases). -/
theorem chiBit_involutive : ∀ a b c : Bool,
    ((a ^^ (c && !b)) ^^ ((c ^^ (b && !a)) && !(b ^^ (a && !c)))) = a := by decide

theorem chiWord_chiWord (a b c : Word) : chiWord (chiWord a b c) (chiWord b c a) (chiWord c a b) = a := by
  refine BitVec.eq_of_getLsbD_eq fun i hi => ?_
  simp only [chiWord, BitVec.getLsbD_xor, BitVec.getLsbD_and, BitVec.getLsbD_not, hi, decide_true, Bool.true_and,
    chiBit_involutive]

theorem chiBare_involutive : Function.Involutive chiBare := by
  intro S
  simp only [chiBare, Quad.map3, chiWord_chiWord]

theorem chi_bijective : Function.Bijective chi := by
  rw [chi_eq_comp]
  exact (turnPlanes_bijective (by decide) (by decide)).comp
    (chiBare_involutive.bijective.comp (turnPlanes_bijective (by decide) (by decide)))

/-! ### The round and the permutation -/

theorem permRound_bijective (r : Nat) : Function.Bijective (permRound r) :=
  rhoEast_bijective.comp <| chi_bijective.comp <| (iota_involutive r).bijective.comp <|
    rhoWest_bijective.comp theta_bijective

theorem permRounds_bijective (n : Nat) : Function.Bijective (permRounds n) := by
  induction n with
  | zero => exact Function.bijective_id
  | succ n ih => exact (permRound_bijective n).comp ih

/-- Settles O14: twelve rounds, each a bijection. -/
theorem permuteIsBijective : Obligations.PermuteIsBijective := permRounds_bijective 12

end Sys2Proof.Machine

/-! The command PERMUTE (spec/40_permutation.md R131). -/

namespace Sys2Proof.Machine

/-- A command that the implementation lacks is ILLEGAL (spec/60_exceptions.md R243). -/
theorem checkInstr_of_not_wellFormed {s : State} {i : Instr} (hc : s.cmd = none) (hw : i.wellFormed s.params = false) :
    s.checkInstr i = some .illegalCmd := by
  simp [State.checkInstr, State.checkCommand, hc, hw]

/-- Settles O25: with P_DEBUG the command exists and is legal in every phase, so it is accepted and carried out; without
P_DEBUG it is ILLEGAL. -/
theorem permuteRunsOnlyWithDebug : Obligations.PermuteRunsOnlyWithDebug := by
  refine ⟨fun s hc hdebug => ?_, fun s hc hdebug => ?_⟩
  · exact exec_of_accepted ((checkInstr_eq_none_iff s .permute).mpr ⟨hc, hdebug, rfl⟩)
  · exact exec_of_rejected (checkInstr_of_not_wellFormed hc hdebug)

end Sys2Proof.Machine

/-! The rate's bytes, the tail of a final block, and the domain words (spec/41_session.md R151 to R153, R157). -/

namespace Sys2Proof

open Machine

/-- Byte 4k+j of a block is byte j of its word k (spec/20_memory.md R69). -/
theorem Quad.byte_word (q : Quad) (k j : Fin 4) : q.byte ⟨4 * k.val + j.val, by omega⟩ = wordByte (q.get k) j := by
  have hword : (4 * k.val + j.val) / 4 = k.val := by omega
  have hbyte : (4 * k.val + j.val) % 4 = j.val := by omega
  simp only [Quad.byte, hword, hbyte]

/-- Word k of a block is the LE32 of its four bytes (spec/00_scope.md R9). -/
theorem Quad.get_eq_le32 (q : Quad) (k : Fin 4) :
    q.get k = le32 (q.byte ⟨4 * k.val, by omega⟩) (q.byte ⟨4 * k.val + 1, by omega⟩)
      (q.byte ⟨4 * k.val + 2, by omega⟩) (q.byte ⟨4 * k.val + 3, by omega⟩) := by
  refine word_ext_bytes fun j => ?_
  rw [wordByte_le32, ← Quad.byte_word]
  fin_cases j <;> rfl

end Sys2Proof

namespace Sys2Proof.Machine

/-- SetRate leaves the capacity S[4..11] (R152). -/
theorem get_setRate_of_capacity (S : Sponge) (b : Quad) {k : Fin 12} (hk : 4 ≤ k.val) :
    (setRate b S).get k = S.get k := by
  have hplane0 : ¬ k.val < 4 := by omega
  simp only [Sponge.get, hplane0, if_false, setRate_p1, setRate_p2]

/-- Settles O7: S[0..3] is the plane the rate is made of, so its bytes are `Quad.byte_word` and its words
`Quad.get_eq_le32`. -/
theorem rateIsLittleEndian : Obligations.RateIsLittleEndian := by
  refine ⟨fun S k j => ?_, fun S b k => ?_, fun S b k => get_setRate_of_capacity S b⟩
  · rw [S.get_plane0]
    exact S.p0.byte_word k j
  · rw [Sponge.get_plane0]
    exact b.get_eq_le32 k

/-- The padded block takes nothing from the bytes at or above LEN (R153). -/
@[simp] theorem pad_mask (b : Quad) (len : BitVec 4) : pad (mask b len) len = pad b len := by
  rw [pad, mask_mask, pad]

/-- Pad byte by byte (R153): the block below L, 0x80 at L, 0 above. -/
theorem byte_pad_eq_ite_lt (b : Quad) (len : BitVec 4) (j : Fin 16) :
    (pad b len).byte j =
      (if j.val < len.toNat then b.byte j else if j.val = len.toNat then 0x80 else 0x00) := by
  rw [byte_pad]
  by_cases h : j.val = len.toNat
  · simp [h]
  · simp only [if_neg h]

@[simp] theorem encFinalAbsorb_mask (len : BitVec 4) (din : Quad) (S : Sponge) :
    encFinalAbsorb len (mask din len) S = encFinalAbsorb len din S := by
  rw [encFinalAbsorb, pad_mask, encFinalAbsorb]

@[simp] theorem hashFinalAbsorb_mask (len : BitVec 4) (din : Quad) (S : Sponge) :
    hashFinalAbsorb len (mask din len) S = hashFinalAbsorb len din S := by
  rw [hashFinalAbsorb, pad_mask, hashFinalAbsorb]

@[simp] theorem decFinalBlock_mask (len : BitVec 4) (din : Quad) (S : Sponge) :
    decFinalBlock len (mask din len) S = decFinalBlock len din S := by
  rw [decFinalBlock, mask_mask, decFinalBlock]

@[simp] theorem decFinalAbsorb_mask (len : BitVec 4) (din : Quad) (S : Sponge) :
    decFinalAbsorb len (mask din len) S = decFinalAbsorb len din S := by
  rw [decFinalAbsorb, decFinalBlock_mask, decFinalAbsorb]

/-- ENC_FINAL sees DIN through Pad alone, and ends with DIN cleared (spec/42_encrypt.md R181). -/
theorem encFinalEffect_mask (len : BitVec 4) (s : State) :
    encFinalEffect len (s.withDin (mask s.din len)) = encFinalEffect len s := by
  simp only [encFinalEffect, State.withDin, State.dinBytes, pad_mask, encFinalAbsorb_mask]
  rfl

/-- DEC_FINAL sees DIN through Mask alone, and ends with DIN cleared (spec/43_decrypt.md R201). -/
theorem decFinalEffect_mask (len : BitVec 4) (s : State) :
    decFinalEffect len (s.withDin (mask s.din len)) = decFinalEffect len s := by
  simp only [decFinalEffect, State.withDin, State.dinBytes, decFinalBlock_mask, decFinalAbsorb_mask]
  rfl

/-- HASH_FINAL sees DIN through Pad alone, and ends with DIN cleared (spec/44_hash.md R221). -/
theorem hashFinalEffect_mask (len : BitVec 4) (s : State) :
    hashFinalEffect len (s.withDin (mask s.din len)) = hashFinalEffect len s := by
  simp only [hashFinalEffect, State.withDin, State.dinBytes, hashFinalAbsorb_mask]
  rfl

/-- A command that the implementation has and that is legal is accepted with no command in progress (R154). -/
theorem checkInstr_of_legal {s : State} {i : Instr} (hc : s.cmd = none) (hw : i.wellFormed s.params = true)
    (hl : legalCommand i s.phase s.mode = true) : s.checkInstr i = none :=
  (checkInstr_eq_none_iff s i).mpr ⟨hc, hw, hl⟩

/-- An accepted command answers the same from two states on which, once accepted, its pseudocode does the same. -/
theorem exec_eq_of_effect_eq {i : Instr} {s t : State} (hs : s.checkInstr i = none) (ht : t.checkInstr i = none)
    (h : commandEffect i (s.accept i) = commandEffect i (t.accept i)) : exec i s = exec i t := by
  rw [exec_of_accepted hs, exec_of_accepted ht, h]

/-- Settles O8: the byte formulas are `byte_mask` and `byte_pad`; a final command reads DIN through Mask and Pad alone,
and neither sees more than Mask(DIN, LEN). -/
theorem tailBytesAreIgnored : Obligations.TailBytesAreIgnored := by
  refine ⟨fun b len j => ⟨byte_mask b len j, byte_pad_eq_ite_lt b len j⟩, fun s len hc => ⟨fun hl => ?_,
    fun hl => ?_, fun hl => ?_⟩⟩
  · exact exec_eq_of_effect_eq (checkInstr_of_legal hc rfl hl) (checkInstr_of_legal hc rfl hl)
      (encFinalEffect_mask len (s.accept _))
  · exact exec_eq_of_effect_eq (checkInstr_of_legal hc rfl hl) (checkInstr_of_legal hc rfl hl)
      (decFinalEffect_mask len (s.accept _))
  · exact exec_eq_of_effect_eq (checkInstr_of_legal hc rfl hl) (checkInstr_of_legal hc rfl hl)
      (hashFinalEffect_mask len (s.accept _))

/-- The domain word of a hash command: bit 26 is not set, and LEN's part above its four bits is 0 (R157). -/
theorem domainHash_eq (len : BitVec 4) : domainHash len = 0x01000000 := by revert len; decide

/-- Settles O9: the expressions are the definitions, and their values are `domainCipher_eq` and `domainHash_eq`. -/
theorem domainWordsDifferInBit26 : Obligations.DomainWordsDifferInBit26 :=
  fun len => ⟨rfl, rfl, domainCipher_eq len, domainHash_eq len⟩

end Sys2Proof.Machine

/-! The phase machine, and what an instruction leaves alone (spec/41_session.md R154, R155, R163). -/

namespace Sys2Proof.Machine

/-- No access moves the phase machine: PHASE and MODE are read-only, and acceptance leaves them (R155). -/
theorem accessEffect_phase_mode (c : Cycle) (s : State) :
    (accessEffect c s).phase = s.phase ∧ (accessEffect c s).mode = s.mode := by
  rcases accessEffect_cases c s with h | ⟨v, h⟩ | ⟨v, h⟩ | ⟨-, ⟨i, -, -, h⟩ | ⟨k, v, h⟩ | ⟨k, v, h⟩ | ⟨k, v, h⟩ |
    ⟨k, v, h⟩ | ⟨-, k, v, h⟩⟩ <;> rw [h] <;> simp

/-- Settles O52: neither the access nor a cycle inside the window moves the phase machine, nor a command that is turned
away; one that is carried out moves it by `commandEffect_phase_mode`. -/
theorem phaseFollowsTheTable : Obligations.PhaseFollowsTheTable := by
  intro s t h hne
  obtain ⟨hphase, hmode⟩ := accessEffect_phase_mode s.nextCycle s.popHost
  rcases clockEdge_cases h with ⟨hr, rfl⟩ | ⟨-, -, rfl⟩ | ⟨-, i, -, -, rfl⟩ | ⟨-, i, u, hc, -, hu, rfl⟩
  · exact .inl ⟨hr, rfl, rfl⟩
  · exact absurd (by simp [hphase, hmode]) hne
  · exact absurd (by simp [State.tick, hphase, hmode]) hne
  · rcases exec_cases hu with ⟨e, -, rfl⟩ | ⟨ha, rfl⟩
    · exact absurd (by simp [hphase, hmode]) hne
    · obtain ⟨-, -, hl⟩ := (checkInstr_eq_none_iff _ i).mp ha
      refine .inr ⟨i, by simpa using hc, by simp, by simpa [hphase, hmode] using hl, ?_⟩
      simp [commandEffect_phase_mode, hphase, hmode]

/-- Of all commands ZEROIZE and DEC_FINAL alone write TAGIN (R163, spec/43_decrypt.md R201). -/
theorem commandEffect_tagin {i : Instr} (hz : i ≠ .zeroize) (hd : ∀ len, i ≠ .decFinal len) (s : State) :
    (commandEffect i s).tagin = s.tagin := by
  cases i with
  | zeroize => exact absurd rfl hz
  | decFinal len => exact absurd rfl (hd len)
  | _ => rfl

/-- Of all commands DEC_FINAL alone can raise an error in its pseudocode (R201). -/
theorem commandEffect_err {i : Instr} (hd : ∀ len, i ≠ .decFinal len) (s : State) :
    (commandEffect i s).err = s.err ∧ (commandEffect i s).errCode = s.errCode := by
  cases i with
  | decFinal len => exact absurd rfl (hd len)
  | _ => exact ⟨rfl, rfl⟩

/-- Settles O54: a command that is turned away only raises its error, and one that is carried out leaves what its
pseudocode, the acceptance and the completion leave. -/
theorem execLeavesTheRestAlone : Obligations.ExecLeavesTheRestAlone := by
  intro i s t h
  rcases exec_cases h with ⟨e, he, rfl⟩ | ⟨ha, rfl⟩
  · exact ⟨rfl, rfl, rfl, rfl, rfl, fun _ => ⟨rfl, rfl⟩, fun _ _ => rfl, fun ha => absurd (he.symm.trans ha) nofun,
      fun _ => rfl⟩
  · exact ⟨by simp, by simp, by simp, by simp, by simp, fun hz => commandEffect_key_nonce hz _,
      fun hz hd => commandEffect_tagin hz hd _, fun _ hd => commandEffect_err hd _, fun hne => absurd ha hne⟩

end Sys2Proof.Machine

/-! The session commands INIT and ZEROIZE (spec/41_session.md R160 to R164). -/

namespace Sys2Proof.Machine

/-- Settles O15: INIT is legal in every phase, so it is accepted and carried out. -/
theorem initLoadsHeaderAndPermutes : Obligations.InitLoadsHeaderAndPermutes := by
  intro s na hc
  rw [exec_of_accepted (checkInstr_of_legal hc rfl rfl)]
  rfl

/-- Settles O16: S after INIT is a function of the header alone (`initLoadsHeaderAndPermutes`), which is the same for an
absent nonce and a zero one, and for equal KEY and NONCE. -/
theorem initRestartsTheSameSession : Obligations.InitRestartsTheSameSession := by
  refine ⟨fun s hc => ⟨_, _, initLoadsHeaderAndPermutes s true hc,
    initLoadsHeaderAndPermutes { s with nonce := Quad.zero } false hc, rfl, rfl⟩, fun s t na hs ht hkey hnonce => ?_⟩
  refine ⟨_, _, initLoadsHeaderAndPermutes s na hs, initLoadsHeaderAndPermutes t na ht, ?_, rfl, rfl, rfl, rfl, rfl,
    rfl, rfl, rfl⟩
  simp only [hkey, hnonce]

/-- Settles O24: ZEROIZE is legal in every phase, so it is accepted and carried out. -/
theorem zeroizeClearsSecrets : Obligations.ZeroizeClearsSecrets := by
  intro s hc
  rw [exec_of_accepted (checkInstr_of_legal hc rfl rfl)]
  rfl

end Sys2Proof.Machine

/-! One step: the access it makes, the cycle of the window, and the command it carries out (spec/41_session.md R154,
R156, spec/60_exceptions.md R250). -/

namespace Sys2Proof.Machine

/-! ### A step with no command in progress -/

/-- An error event leaves the port, so the two updates can come in either order. -/
theorem raiseIf_withPort (e : Option ErrCode) (s : State) (p : PortOut) :
    { s with port := p }.raiseIf e = { s.raiseIf e with port := p } := by
  cases e <;> rfl

/-- A clock cycle with no command in progress is the access presented, seen on the port (spec/20_memory.md R62). -/
theorem clockEdge_eq_busAccess {c : Cycle} {s : State} (hr : c.rst = false) (hc : s.cmd = none) :
    clockEdge c s = .next { busAccess c s with port := portOut c s } := by
  rw [clockEdge_of_idle hr hc, raiseIf_withPort, busAccess]

/-- A write to a mapped register drives no data and no error (R61). -/
theorem portOut_write (r : Reg) (v : Word) (s : State) (h : ∀ k, r = .stateWord k → s.params.debug = true) :
    portOut (Cycle.write (offsetOf r) v) s = ⟨none, false⟩ := by
  simp [portOut, Cycle.write, regAt_offsetOf s.params r h]

theorem busAccess_write_cmd (w : Word) (s : State) :
    busAccess (Cycle.write 0x04 w) s = (s.latch w).raiseIf (s.checkCommand (decode s.params w)) := by
  obtain ⟨heffect, herror⟩ := access_write .cmd w s nofun
  exact congrArg₂ State.raiseIf herror heffect

/-- A CMD write that passes the checks latches the command (spec/41_session.md R154). -/
theorem busAccess_write_cmd_of_accepted {s : State} {w : Word} {i : Instr} (hd : decode s.params w = some i)
    (hc : s.checkCommand (some i) = none) : busAccess (Cycle.write 0x04 w) s = s.accept i := by
  rw [busAccess_write_cmd, hd, hc, State.raiseIf_none]
  simp only [State.latch, hd, hc]

/-- A CMD write that fails a check raises its error and has no other effect (R154). -/
theorem busAccess_write_cmd_of_rejected {s : State} {w : Word} {e : ErrCode}
    (h : s.checkCommand (decode s.params w) = some e) : busAccess (Cycle.write 0x04 w) s = s.raise e := by
  have hlatch : s.latch w = s := by
    unfold State.latch
    cases hd : decode s.params w with
    | none => rfl
    | some i => rw [hd] at h; simp only [h]
  rw [busAccess_write_cmd, h, hlatch, State.raiseIf_some]

/-- A step that presents a CMD write with no command in progress. -/
theorem step_write_cmd {s : State} {w : Word} {cs : List Cycle} (hc : s.cmd = none)
    (hh : s.host = Cycle.write 0x04 w :: cs) :
    step s = .next { busAccess (Cycle.write 0x04 w) { s with host := cs } with port := ⟨none, false⟩ } := by
  have hport : portOut (Cycle.write 0x04 w) { s with host := cs } = ⟨none, false⟩ := portOut_write .cmd w _ nofun
  rw [step_of_cons hh, clockEdge_eq_busAccess rfl (by exact hc), hport]

/-- Settles O36: with no command in progress a cycle is `busAccess` (`clockEdge_eq_busAccess`), and for a CMD write the
checks of R154 decide what that is. -/
theorem stepPresentsCommandWord : Obligations.StepPresentsCommandWord := by
  refine ⟨fun s => step_of_nil, fun s c cs => step_of_cons, fun s hc hh => ?_, fun s c cs hc hh hr => ?_,
    fun s w cs hc hh => ?_⟩
  · rw [step_of_nil hh, clockEdge_eq_busAccess rfl hc]
    rfl
  · rw [step_of_cons hh]
    exact clockEdge_eq_busAccess hr hc
  · rw [step_write_cmd hc hh]
    refine ⟨fun i hd hl => ?_, fun hd => ?_, fun i hd hl => ?_⟩
    · rw [busAccess_write_cmd_of_accepted (s := { s with host := cs }) hd
        ((checkCommand_eq_none_iff _ _).mpr ⟨hc, i, rfl, hl⟩)]
      rfl
    · rw [busAccess_write_cmd_of_rejected (e := .illegalCmd) (by simp [State.checkCommand, hc, hd])]
      rfl
    · rw [busAccess_write_cmd_of_rejected (e := .seqErr) (by simp [State.checkCommand, hc, hd, hl])]
      rfl

/-! ### A step with a command in progress -/

/-- A cycle of the window advances the hidden state by what the state at its start holds: the access of the cycle reaches
neither the hidden state nor DIN and S (spec/70_reset_and_hazards.md R281). -/
theorem tick_accessEffect_of_busy {s : State} {i : Instr} (hc : s.cmd = some i) (c : Cycle) (p : PortOut) :
    { accessEffect c s with port := p }.tick i =
      { accessEffect c s with
        seqStep := s.seqStep + 1, round := roundAt s.params i (s.seqStep + 1)
        scratch := scratchAt s.params i (s.seqStep + 1) s.din s.sponge, port := p } := by
  rcases accessEffect_of_busy hc c with h | ⟨v, h⟩ | ⟨v, h⟩ <;> simp [h, State.tick, State.atStep]

/-- A cycle of the window before its last makes the access presented and advances the hidden state. -/
theorem clockEdge_of_window_eq {c : Cycle} {s : State} {i : Instr} (hr : c.rst = false) (hc : s.cmd = some i)
    (hl : s.seqStep + 1 < latency s.params i) :
    clockEdge c s = .next
      { busAccess c s with
        seqStep := s.seqStep + 1, round := roundAt s.params i (s.seqStep + 1)
        scratch := scratchAt s.params i (s.seqStep + 1) s.din s.sponge, port := portOut c s } := by
  rw [clockEdge_of_window hr hc (decide_eq_false (Nat.not_le.mpr hl)), tick_accessEffect_of_busy hc, busAccess]
  cases accessError c s <;> rfl

@[simp] theorem mapNext_raiseIf_none (r : Result) : mapNext (State.raiseIf none) r = r := by
  cases r <;> rfl

/-- With no access presented the last cycle of the window is `exec` of the command alone (spec/41_session.md R156). -/
theorem clockEdge_idle_of_last {s : State} {i : Instr} (hc : s.cmd = some i) (hl : latency s.params i ≤ s.seqStep + 1) :
    clockEdge Cycle.idle s = exec i { s with port := PortOut.quiet }.release := by
  rw [clockEdge_of_last rfl hc (decide_eq_true hl), accessError_idle, mapNext_raiseIf_none]
  rfl

/-- Settles O37: inside the window a cycle is `clockEdge_of_window_eq`, at its last `clockEdge_of_last`; with nothing
listed the cycle is the idle one. -/
theorem stepRunsLatchedInstruction : Obligations.StepRunsLatchedInstruction := by
  refine ⟨fun s i hc hl => ⟨fun hh => ?_, fun c cs hh hr => ?_⟩,
    fun s i hc hl => ⟨fun hh => ?_, fun c cs hh hr => ?_⟩⟩
  · rw [step_of_nil hh, clockEdge_of_window_eq rfl hc hl]
    rfl
  · rw [step_of_cons hh]
    exact clockEdge_of_window_eq (s := { s with host := cs }) hr hc hl
  · rw [step_of_nil hh]
    exact clockEdge_idle_of_last hc hl
  · rw [step_of_cons hh]
    exact clockEdge_of_last (s := { s with host := cs }) hr hc (decide_eq_true hl)

/-! ### A step after a command word was placed -/

/-- A word that is accepted with no command in progress is placed in the latch, at the last cycle of its window (log
entry 5). -/
theorem stageCommand_of_legal {s : State} {v : Word} {i : Instr} (hd : decode s.params v = some i)
    (hl : legalCommand i s.phase s.mode = true) :
    s.stageCommand v =
      { (s.release.accept i).atStep i (latency s.params i - 1) with host := Cycle.idle :: s.host } := by
  have hcheck : s.release.checkCommand (some i) = none :=
    (checkCommand_eq_none_iff _ _).mpr ⟨rfl, i, rfl, hl⟩
  have hd' : decode s.release.params v = some i := hd
  simp only [State.stageCommand, hd', hcheck]
  rfl

/-- Settles O38: the placed command is in its last cycle, with no access presented, so the step is `exec` of it, and
its acceptance inside `exec` makes equal what the acceptance before had changed (log entry 4). -/
theorem stepRunsPlacedWord : Obligations.StepRunsPlacedWord := by
  intro s nbits w i hd hl
  have hw := wellFormed_of_decode hd
  have hlast : latency s.params i ≤ (latency s.params i - 1) + 1 := by omega
  rw [State.withFetchWord, stageCommand_of_legal hd hl, step_of_cons rfl, clockEdge_idle_of_last rfl hlast]
  refine exec_eq_of_effect_eq (checkInstr_of_legal rfl ?_ ?_) (checkInstr_of_legal rfl hw hl) (congrArg _ ?_)
  · simpa using hw
  · simpa using hl
  · simp only [State.accept, State.release, State.atStep, PortOut.quiet]

end Sys2Proof.Machine

/-! The encrypt family, and the full blocks of all three families (spec/42_encrypt.md R180 to R182). -/

namespace Sys2Proof

theorem Quad.xor_xor_cancel_right (a b : Quad) : (a.xor b).xor b = a := by
  rw [Quad.xor_assoc, Quad.xor_self, Quad.xor_zero]

end Sys2Proof

namespace Sys2Proof.Machine

/-- In READY, and in ABSORB locked to `m`, a command of mode `m` is legal (spec/41_session.md R155). -/
theorem legalIn_of_ready_or_locked {m mode : Mode} {phase : Phase}
    (h : phase = .ready ∨ (phase = .absorb ∧ mode = m)) : legalIn m phase mode = true := by
  rcases h with rfl | ⟨rfl, rfl⟩
  · rfl
  · exact decide_eq_true rfl

/-- With no command in progress, in READY or in ABSORB locked to `m`, every block and final command of mode `m` is
accepted (R154, R155). -/
theorem checkInstr_of_sessionMode {s : State} {i : Instr} {m : Mode} (hm : sessionMode i = some m)
    (hc : s.cmd = none) (hp : s.phase = .ready ∨ (s.phase = .absorb ∧ s.mode = m)) : s.checkInstr i = none := by
  have hl : legalIn m s.phase s.mode = true := legalIn_of_ready_or_locked hp
  cases i with
  | init | zeroize | permute => cases hm
  | encBlock | encFinal | decBlock | decFinal | hashBlock | hashFinal =>
    cases hm
    exact checkInstr_of_legal hc rfl hl

/-! ### Full blocks -/

/-- ENC_BLOCK puts out the ciphertext and absorbs it: "buf" is "c" (R180). -/
theorem encBlockEffect_eq (s : State) :
    encBlockEffect s =
      { s.absorbed .absorb .enc with
        sponge := permute (setRate (s.din.xor (rate s.sponge)) s.sponge)
        out := ⟨s.din.xor (rate s.sponge), Quad.zero⟩ } := by
  simp only [encBlockEffect, State.dinBytes, s.din.xor_comm]

/-- DEC_BLOCK puts out the plaintext and absorbs the ciphertext: "buf" is "c" (spec/43_decrypt.md R200). -/
theorem decBlockEffect_eq (s : State) :
    decBlockEffect s =
      { s.absorbed .absorb .dec with
        sponge := permute (setRate s.din s.sponge)
        out := ⟨s.din.xor (rate s.sponge), Quad.zero⟩ } := by
  simp only [decBlockEffect, State.dinBytes, Quad.xor_comm (rate _), Quad.xor_xor_cancel_right]

/-- Settles O17: the accepted command runs `encBlockEffect_eq`. -/
theorem encBlockEmitsAndAbsorbs : Obligations.EncBlockEmitsAndAbsorbs := by
  intro s hc hp
  rw [exec_of_accepted (checkInstr_of_sessionMode rfl hc hp), commandEffect, encBlockEffect_eq]
  rfl

/-- Settles O57: ENC_BLOCK and HASH_BLOCK put `Rate(S) XOR plaintext` in the rate; DEC_BLOCK puts its input there
(`decBlockEffect_eq`), which is that ciphertext. -/
theorem fullBlocksChangeSAlike : Obligations.FullBlocksChangeSAlike := by
  intro s t u m hs ht hu hls hlt hlu hts hus
  refine ⟨_, _, _, exec_of_accepted (checkInstr_of_legal hs rfl hls),
    exec_of_accepted (checkInstr_of_legal ht rfl hlt), exec_of_accepted (checkInstr_of_legal hu rfl hlu), ?_⟩
  simp only [commandEffect, encBlockEffect_eq, decBlockEffect_eq, hashBlockEffect, State.complete_sponge,
    State.complete_out, State.accept_sponge, State.accept_din, State.dinBytes, rate, hts, hus]
  rw [s.sponge.p0.xor_comm m, Quad.xor_xor_cancel_right]
  exact ⟨rfl, rfl, trivial, rfl⟩

/-! ### The final block -/

/-- The padded block absorbed, byte by byte: XORed into the keystream below LEN, 0x80 into byte LEN, the keystream
above (spec/41_session.md R153). -/
theorem absorb_pad_eq_finalInput (domain : Word) (len : BitVec 4) (din : Quad) (S : Sponge) :
    xorLast domain (setRate ((rate S).xor (pad din len)) S) =
      finalInput domain (fun j => din.byte j ^^^ S.p0.byte j) len S := by
  have hrate : (rate S).xor (pad din len) = (finalInput domain (fun j => din.byte j ^^^ S.p0.byte j) len S).p0 := by
    refine Quad.ext_byte fun j => ?_
    rw [Quad.byte_xor, byte_pad_eq_ite_lt, finalInput, Quad.byte_ofBytes, rate]
    rcases Nat.lt_trichotomy j.val len.toNat with h | h | h
    · simp [h, BitVec.xor_comm]
    · simp [h]
    · simp [h.ne', h.not_gt]
  rw [hrate]
  rfl

/-- What ENC_FINAL absorbs (R181). -/
theorem encFinalAbsorb_eq_finalInput (len : BitVec 4) (din : Quad) (S : Sponge) :
    encFinalAbsorb len din S = finalInput 0x05000000 (fun j => din.byte j ^^^ S.p0.byte j) len S := by
  rw [encFinalAbsorb, domainCipher_eq, absorb_pad_eq_finalInput]

/-- What ENC_FINAL puts out in OUT0..3: below LEN the padded block is the plaintext (R181). -/
theorem mask_pad_xor (b sq : Quad) (len : BitVec 4) :
    mask ((pad b len).xor sq) len =
      Quad.ofBytes fun j => if j.val < len.toNat then b.byte j ^^^ sq.byte j else 0x00 := by
  refine congrArg Quad.ofBytes (funext fun j => ?_)
  split
  case isTrue h => rw [Quad.byte_xor, byte_pad_eq_ite_lt, if_pos h]
  case isFalse => rfl

/-- Settles O18: the accepted command absorbs `encFinalAbsorb_eq_finalInput` and puts out `mask_pad_xor`. -/
theorem encFinalEmitsCiphertextAndTag : Obligations.EncFinalEmitsCiphertextAndTag := by
  intro s len hc hp
  rw [exec_of_accepted (checkInstr_of_sessionMode rfl hc hp), commandEffect, encFinalEffect]
  simp only [mask_pad_xor, encFinalAbsorb_eq_finalInput]
  rfl

end Sys2Proof.Machine

/-! The decrypt family (spec/43_decrypt.md R200, R201). -/

namespace Sys2Proof.Machine

/-- Settles O19: the accepted command runs `decBlockEffect_eq`. -/
theorem decBlockRecoversAndAbsorbs : Obligations.DecBlockRecoversAndAbsorbs := by
  intro s hc hp
  rw [exec_of_accepted (checkInstr_of_sessionMode rfl hc hp), commandEffect, decBlockEffect_eq]
  rfl

/-- What DEC_FINAL puts out in OUT0..3 on a match: the plaintext below LEN, 0 elsewhere (R201). -/
theorem mask_decFinalBlock (len : BitVec 4) (din : Quad) (S : Sponge) :
    mask (decFinalBlock len din S) len =
      Quad.ofBytes fun j => if j.val < len.toNat then din.byte j ^^^ S.p0.byte j else 0x00 := by
  refine congrArg Quad.ofBytes (funext fun j => ?_)
  split
  case isTrue h =>
    rw [decFinalBlock, byte_setByte, if_neg h.ne, Quad.byte_xor, byte_mask, byte_mask, if_pos h, if_pos h, rate]
  case isFalse => rfl

/-- Settles O20: the accepted command runs `decFinalEffect_of_match`, whose input and output are
`decFinalAbsorb_eq_finalInput` and `mask_decFinalBlock`. -/
theorem decFinalReleasesPlaintextOnMatch : Obligations.DecFinalReleasesPlaintextOnMatch := by
  intro s len hc hp htag
  rw [← decFinalAbsorb_eq_finalInput] at htag ⊢
  rw [exec_of_accepted (checkInstr_of_sessionMode rfl hc hp), commandEffect,
    decFinalEffect_of_match (s := s.accept _) htag, ← mask_decFinalBlock]
  rfl

/-- Settles O21: the accepted command runs `decFinalEffect_of_mismatch`, with `decFinalAbsorb_eq_finalInput` as
input. -/
theorem decFinalZeroesOutputOnMismatch : Obligations.DecFinalZeroesOutputOnMismatch := by
  intro s len hc hp htag
  rw [← decFinalAbsorb_eq_finalInput] at htag ⊢
  rw [exec_of_accepted (checkInstr_of_sessionMode rfl hc hp), commandEffect,
    decFinalEffect_of_mismatch (s := s.accept _) htag]
  rfl

end Sys2Proof.Machine

/-! Whole messages: a decrypt session run on what an encrypt session gave (spec/43_decrypt.md R202, R203). Between
commands the two sessions hold the same S, and each is open for its own mode. -/

namespace Sys2Proof.Machine

/-- A session of mode `m` can go on: no command is in progress, and the phase is READY, or ABSORB locked to `m`
(spec/41_session.md R155). -/
structure State.OpenFor (m : Mode) (s : State) : Prop where
  idle : s.cmd = none
  unlocked : s.phase = .ready ∨ (s.phase = .absorb ∧ s.mode = m)

/-- INIT from the same KEY and NONCE opens the same session, for every mode (R160, R164). -/
theorem exists_init_openFor (na : Bool) {s t : State} (hs : s.cmd = none) (ht : t.cmd = none) (hkey : s.key = t.key)
    (hnonce : s.nonce = t.nonce) :
    ∃ s1 t1, exec (.init na) s = .next s1 ∧ exec (.init na) t = .next t1 ∧ t1.sponge = s1.sponge ∧
      ∀ m, s1.OpenFor m ∧ t1.OpenFor m := by
  refine ⟨_, _, initLoadsHeaderAndPermutes s na hs, initLoadsHeaderAndPermutes t na ht, ?_,
    fun m => ⟨⟨rfl, .inl rfl⟩, ⟨rfl, .inl rfl⟩⟩⟩
  simp only [hkey, hnonce]

/-! ### The runs of R159, one command at a time -/

theorem runBlocks_cons {i : Instr} {b : Quad} {bs cs : List Quad} {s t u : State}
    (hexec : exec i (s.withDin b) = .next t) (hrun : runBlocks i bs t = some (cs, u)) :
    runBlocks i (b :: bs) s = some (t.out.lo :: cs, u) := by
  simp only [runBlocks, hexec, nextState, hrun]

theorem encryptMessage_of_run {blocks cs : List Quad} {last : Quad} {len : BitVec 4} {s t u : State}
    (hrun : runBlocks .encBlock blocks s = some (cs, t)) (hexec : exec (.encFinal len) (t.withDin last) = .next u) :
    encryptMessage blocks last len s = some ⟨cs, u.out.lo, u.out.hi, u⟩ := by
  simp only [encryptMessage, hrun, hexec, nextState]

theorem decryptMessage_of_run {blocks ms : List Quad} {last tag : Quad} {len : BitVec 4} {s t u : State}
    (hrun : runBlocks .decBlock blocks s = some (ms, t))
    (hexec : exec (.decFinal len) { t.withDin last with tagin := tag } = .next u) :
    decryptMessage blocks last len tag s = some (ms, u) := by
  simp only [decryptMessage, hrun, hexec, nextState]

/-! ### The full blocks -/

/-- DEC_BLOCK of the block ENC_BLOCK put out, in a session with the same S, gives the plaintext and leaves the same S:
both absorb the ciphertext (spec/42_encrypt.md R180, spec/43_decrypt.md R200). -/
theorem decBlock_of_encBlock {s t : State} (hs : s.OpenFor .enc) (ht : t.OpenFor .dec) (hS : t.sponge = s.sponge)
    (b : Quad) :
    ∃ s1 t1, exec .encBlock (s.withDin b) = .next s1 ∧ exec .decBlock (t.withDin s1.out.lo) = .next t1 ∧
      t1.out.lo = b ∧ s1.OpenFor .enc ∧ t1.OpenFor .dec ∧ t1.sponge = s1.sponge := by
  refine ⟨_, _, encBlockEmitsAndAbsorbs (s.withDin b) hs.idle hs.unlocked,
    decBlockRecoversAndAbsorbs (t.withDin _) ht.idle ht.unlocked, ?_, ⟨rfl, .inr ⟨rfl, rfl⟩⟩,
    ⟨rfl, .inr ⟨rfl, rfl⟩⟩, ?_⟩
  all_goals simp only [State.withDin, hS, Quad.xor_xor_cancel_right]

/-- The decrypt session over the blocks the encrypt session put out recovers the message, and the two end with the same
S. -/
theorem runBlocks_decBlock_of_encBlock (blocks : List Quad) {s t : State} (hs : s.OpenFor .enc) (ht : t.OpenFor .dec)
    (hS : t.sponge = s.sponge) :
    ∃ cs u v, runBlocks .encBlock blocks s = some (cs, u) ∧ runBlocks .decBlock cs t = some (blocks, v) ∧
      u.OpenFor .enc ∧ v.OpenFor .dec ∧ v.sponge = u.sponge := by
  induction blocks generalizing s t with
  | nil => exact ⟨[], s, t, rfl, rfl, hs, ht, hS⟩
  | cons b bs ih =>
    obtain ⟨s1, t1, henc, hdec, hout, hs1, ht1, hS1⟩ := decBlock_of_encBlock hs ht hS b
    obtain ⟨cs, u, v, hencs, hdecs, hu, hv, hSuv⟩ := ih hs1 ht1 hS1
    refine ⟨s1.out.lo :: cs, u, v, runBlocks_cons henc hencs, ?_, hu, hv, hSuv⟩
    rw [runBlocks_cons hdec hdecs, hout]

/-! ### The final block -/

/-- A final command sees of the absorbed bytes only those below LEN. -/
theorem finalInput_congr {domain : Word} {f g : Fin 16 → Byte} {len : BitVec 4} {S : Sponge}
    (h : ∀ j : Fin 16, j.val < len.toNat → f j = g j) : finalInput domain f len S = finalInput domain g len S := by
  refine congrArg (Sponge.mk · _ _) (congrArg Quad.ofBytes (funext fun j => ?_))
  exact ite_congr rfl (h j) fun _ => rfl

/-- ENC_FINAL's output, seen from a DEC_FINAL with the same S: below LEN it is the plaintext XOR the keystream, its tag
is the one DEC_FINAL computes from it, and its S is the one DEC_FINAL leaves (R181, R201). -/
theorem encFinal_output {s : State} (hs : s.OpenFor .enc) (last : Quad) (len : BitVec 4) :
    ∃ u, exec (.encFinal len) (s.withDin last) = .next u ∧
      (∀ j : Fin 16, j.val < len.toNat → u.out.lo.byte j = last.byte j ^^^ s.sponge.p0.byte j) ∧
      u.out.hi = (permute (finalInput 0x05000000 u.out.lo.byte len s.sponge)).p0 ∧
      u.sponge = permute (permute (finalInput 0x05000000 u.out.lo.byte len s.sponge)) := by
  refine ⟨_, encFinalEmitsCiphertextAndTag (s.withDin last) len hs.idle hs.unlocked, ?_⟩
  have hbyte : ∀ j : Fin 16, j.val < len.toNat →
      (Quad.ofBytes fun j => if j.val < len.toNat then last.byte j ^^^ s.sponge.p0.byte j else 0x00).byte j =
        last.byte j ^^^ s.sponge.p0.byte j := fun j h => by rw [Quad.byte_ofBytes, if_pos h]
  simp only [State.withDin, finalInput_congr hbyte]
  exact ⟨hbyte, trivial, trivial⟩

/-- What a whole Encrypt gives a decrypt session with the same S: the blocks decrypt to the message, and at the last
block the tag is the one DEC_FINAL computes. -/
theorem exists_encryptMessage_runBlocks_decBlock (blocks : List Quad) (last : Quad) (len : BitVec 4) {s t : State}
    (hs : s.OpenFor .enc) (ht : t.OpenFor .dec) (hS : t.sponge = s.sponge) :
    ∃ sent v, encryptMessage blocks last len s = some sent ∧ runBlocks .decBlock sent.blocks t = some (blocks, v) ∧
      v.OpenFor .dec ∧
      (∀ j : Fin 16, j.val < len.toNat → sent.last.byte j = last.byte j ^^^ v.sponge.p0.byte j) ∧
      sent.tag = (permute (finalInput 0x05000000 sent.last.byte len v.sponge)).p0 ∧
      sent.final.sponge = permute (permute (finalInput 0x05000000 sent.last.byte len v.sponge)) := by
  obtain ⟨cs, u, v, henc, hdec, hu, hv, hSuv⟩ := runBlocks_decBlock_of_encBlock blocks hs ht hS
  obtain ⟨w, hfinal, hlast, htag, hw⟩ := encFinal_output hu last len
  rw [← hSuv] at hlast htag hw
  exact ⟨⟨cs, w.out.lo, w.out.hi, w⟩, v, encryptMessage_of_run henc hfinal, hdec, hv, hlast, htag, hw⟩

/-! ### The two ends of a decrypt session -/

/-- Settles O58: the full blocks and the tag are `exists_encryptMessage_runBlocks_decBlock`, so DEC_FINAL finds
the tag right (`decFinalReleasesPlaintextOnMatch`) and XORs the keystream off the last block. -/
theorem decryptInvertsEncrypt : Obligations.DecryptInvertsEncrypt := by
  intro s t na blocks last len hs ht hkey hnonce
  obtain ⟨s1, t1, hinits, hinitt, hS, hopen⟩ := exists_init_openFor na hs ht hkey hnonce
  obtain ⟨sent, v, henc, hdec, hv, hlast, htag, hfinal⟩ :=
    exists_encryptMessage_runBlocks_decBlock blocks last len (hopen .enc).1 (hopen .dec).2 hS
  refine ⟨s1, t1, sent, blocks, _, hinits, hinitt, henc,
    decryptMessage_of_run hdec (decFinalReleasesPlaintextOnMatch { v.withDin sent.last with tagin := sent.tag } len
      hv.idle hv.unlocked htag), rfl, fun j hj => ?_, rfl, hfinal.symm⟩
  simp only [State.withDin, Quad.byte_ofBytes, if_pos hj, hlast j hj, BitVec.xor_assoc, BitVec.xor_self,
    BitVec.xor_zero]

/-- Settles O59: the tag DEC_FINAL computes is the one Encrypt gave (`exists_encryptMessage_runBlocks_decBlock`), so any
other one fails (`decFinalZeroesOutputOnMismatch`). -/
theorem alteredTagIsRejected : Obligations.AlteredTagIsRejected := by
  intro s t na blocks last tag len s1 t1 sent hs ht hkey hnonce hinits hinitt henc hne
  obtain ⟨s1', t1', hinits', hinitt', hS, hopen⟩ := exists_init_openFor na hs ht hkey hnonce
  cases hinits.symm.trans hinits'
  cases hinitt.symm.trans hinitt'
  obtain ⟨sent', v, henc', hdec, hv, -, htag, -⟩ :=
    exists_encryptMessage_runBlocks_decBlock blocks last len (hopen .enc).1 (hopen .dec).2 hS
  cases henc.symm.trans henc'
  have hmismatch : tag ≠ (permute (finalInput 0x05000000 sent.last.byte len v.sponge)).p0 := htag ▸ hne
  exact ⟨blocks, _, decryptMessage_of_run hdec (decFinalZeroesOutputOnMismatch
    { v.withDin sent.last with tagin := tag } len hv.idle hv.unlocked hmismatch), rfl, rfl, rfl, rfl, rfl⟩

end Sys2Proof.Machine

/-! The hash family (spec/44_hash.md R220 to R222). -/

namespace Sys2Proof.Machine

/-- Settles O22: the accepted command runs `hashBlockEffect`, whose rate is the one the statement gives. -/
theorem hashBlockAbsorbsOnly : Obligations.HashBlockAbsorbsOnly := by
  intro s hc hp
  rw [exec_of_accepted (checkInstr_of_sessionMode rfl hc hp), commandEffect, hashBlockEffect]
  rfl

/-- What HASH_FINAL absorbs: the padded block and the hash domain word (R221). -/
theorem hashFinalAbsorb_eq_finalInput (len : BitVec 4) (din : Quad) (S : Sponge) :
    hashFinalAbsorb len din S = finalInput 0x01000000 (fun j => din.byte j ^^^ S.p0.byte j) len S := by
  rw [hashFinalAbsorb, domainHash_eq, absorb_pad_eq_finalInput]

/-- Settles O23: the accepted command absorbs `hashFinalAbsorb_eq_finalInput`. -/
theorem hashFinalSqueezesTwice : Obligations.HashFinalSqueezesTwice := by
  intro s len hc hp
  rw [exec_of_accepted (checkInstr_of_sessionMode rfl hc hp), commandEffect, hashFinalEffect]
  simp only [hashFinalAbsorb_eq_finalInput]
  rfl

/-! ### Two hash sessions with the same S -/

theorem hashMessage_of_run {blocks cs : List Quad} {last : Quad} {len : BitVec 4} {s t u : State}
    (hrun : runBlocks .hashBlock blocks s = some (cs, t)) (hexec : exec (.hashFinal len) (t.withDin last) = .next u) :
    hashMessage blocks last len s = some (u.out, u) := by
  simp only [hashMessage, hrun, hexec, nextState]

/-- HASH_BLOCK of the same block in two sessions with the same S leaves the same S in both. -/
theorem exists_hashBlock_sponge_eq {s t : State} (hs : s.OpenFor .hash) (ht : t.OpenFor .hash)
    (hS : t.sponge = s.sponge) (b : Quad) :
    ∃ s1 t1, exec .hashBlock (s.withDin b) = .next s1 ∧ exec .hashBlock (t.withDin b) = .next t1 ∧
      s1.OpenFor .hash ∧ t1.OpenFor .hash ∧ t1.sponge = s1.sponge := by
  refine ⟨_, _, hashBlockAbsorbsOnly (s.withDin b) hs.idle hs.unlocked,
    hashBlockAbsorbsOnly (t.withDin b) ht.idle ht.unlocked, ⟨rfl, .inr ⟨rfl, rfl⟩⟩, ⟨rfl, .inr ⟨rfl, rfl⟩⟩, ?_⟩
  simp only [State.withDin, hS]

/-- The full blocks of one message, run in two sessions with the same S, leave the same S in both. -/
theorem exists_runBlocks_hashBlock_sponge_eq (blocks : List Quad) {s t : State} (hs : s.OpenFor .hash)
    (ht : t.OpenFor .hash) (hS : t.sponge = s.sponge) :
    ∃ cs ds u v, runBlocks .hashBlock blocks s = some (cs, u) ∧ runBlocks .hashBlock blocks t = some (ds, v) ∧
      u.OpenFor .hash ∧ v.OpenFor .hash ∧ v.sponge = u.sponge := by
  induction blocks generalizing s t with
  | nil => exact ⟨[], [], s, t, rfl, rfl, hs, ht, hS⟩
  | cons b bs ih =>
    obtain ⟨s1, t1, hexecs, hexect, hs1, ht1, hS1⟩ := exists_hashBlock_sponge_eq hs ht hS b
    obtain ⟨cs, ds, u, v, hruns, hrunt, hu, hv, hSuv⟩ := ih hs1 ht1 hS1
    exact ⟨_, _, u, v, runBlocks_cons hexecs hruns, runBlocks_cons hexect hrunt, hu, hv, hSuv⟩

/-- HASH_FINAL of the same last block in two sessions with the same S puts out the same digest and leaves the same
S. -/
theorem exists_hashFinal_out_sponge_eq {s t : State} (hs : s.OpenFor .hash) (ht : t.OpenFor .hash)
    (hS : t.sponge = s.sponge) (last : Quad) (len : BitVec 4) :
    ∃ s1 t1, exec (.hashFinal len) (s.withDin last) = .next s1 ∧ exec (.hashFinal len) (t.withDin last) = .next t1 ∧
      t1.out = s1.out ∧ t1.sponge = s1.sponge := by
  refine ⟨_, _, hashFinalSqueezesTwice (s.withDin last) len hs.idle hs.unlocked,
    hashFinalSqueezesTwice (t.withDin last) len ht.idle ht.unlocked, ?_, ?_⟩
  all_goals simp only [State.withDin, hS]

/-- Settles O60: INIT leaves the same S in both sessions (`exists_init_openFor`), the full blocks keep the two equal
(`exists_runBlocks_hashBlock_sponge_eq`), and HASH_FINAL's digest depends on S and its block alone. -/
theorem hashIsDeterministic : Obligations.HashIsDeterministic := by
  intro s t na blocks last len hs ht hkey hnonce
  obtain ⟨s1, t1, hinits, hinitt, hS, hopen⟩ := exists_init_openFor na hs ht hkey hnonce
  obtain ⟨cs, ds, u, v, hruns, hrunt, hu, hv, hSuv⟩ :=
    exists_runBlocks_hashBlock_sponge_eq blocks (hopen .hash).1 (hopen .hash).2 hS
  obtain ⟨s2, t2, hfinals, hfinalt, hout, hS2⟩ := exists_hashFinal_out_sponge_eq hu hv hSuv last len
  have hasht := hashMessage_of_run hrunt hfinalt
  rw [hout] at hasht
  exact ⟨s1, t1, s2.out, s2, t2, hinits, hinitt, hashMessage_of_run hruns hfinals, hasht, hS2.symm⟩

end Sys2Proof.Machine

/-! Error events (spec/60_exceptions.md R240 to R250): what each check of a command's presentation raises, the writes that
a command in progress turns away, and the order of events in a completion cycle. -/

namespace Sys2Proof.Machine

/-! ### No error stops the block -/

/-- Every clock cycle answers a next state: at the last cycle of a window because every command does (`exec_next`). -/
theorem clockEdge_next (c : Cycle) (s : State) : ∃ t, clockEdge c s = .next t := by
  cases hr : c.rst with
  | true => exact ⟨_, clockEdge_of_rst hr s⟩
  | false =>
    cases hc : s.cmd with
    | none => exact ⟨_, clockEdge_of_idle hr hc⟩
    | some i =>
      cases hl : s.lastCycle i with
      | false => exact ⟨_, clockEdge_of_window hr hc hl⟩
      | true =>
        obtain ⟨t, ht⟩ := exec_next i { accessEffect c s with port := portOut c s }.release
        exact ⟨t.raiseIf (accessError c s), by rw [clockEdge_of_last hr hc hl, ht]; rfl⟩

/-- Settles O43: a step is a clock cycle, which always answers a next state. -/
theorem stepNeverStops : Obligations.StepNeverStops :=
  fun s => clockEdge_next s.nextCycle s.popHost

/-! ### What each check raises -/

/-- With a command in progress every command word is turned away, decoded or not (spec/41_session.md R154). -/
theorem checkCommand_of_busy {s : State} {i : Instr} (hc : s.cmd = some i) (d : Option Instr) :
    s.checkCommand d = some .busyErr := by
  simp [State.checkCommand, hc]

/-- With none in progress, a word that does not decode (R243). -/
theorem checkCommand_of_illegal {s : State} (hc : s.cmd = none) : s.checkCommand none = some .illegalCmd := by
  simp [State.checkCommand, hc]

/-- With none in progress, a command that the phase machine forbids (R244). -/
theorem checkCommand_of_out_of_sequence {s : State} {i : Instr} (hc : s.cmd = none)
    (hl : legalCommand i s.phase s.mode = false) : s.checkCommand (some i) = some .seqErr := by
  simp [State.checkCommand, hc, hl]

/-- A command that the implementation has is checked as its decoded word is. -/
theorem checkInstr_of_wellFormed {s : State} {i : Instr} (hw : i.wellFormed s.params = true) :
    s.checkInstr i = s.checkCommand (some i) := by
  rw [State.checkInstr, if_pos hw]

/-! ### ILLEGAL_CMD -/

/-- The reserved OP values (spec/30_encoding.md R97). -/
theorem ofFields_eq_none_iff (op len : BitVec 4) (na : Bool) : ofFields op len na = none ↔ op = 0x0 ∨ 0xA ≤ op := by
  revert op len na; decide

/-- The words that Decode rejects: one disjunct for each of its tests, and an OP that passes them selects a command
(R96). -/
theorem decode_eq_none_iff (p : Params) (w : Word) :
    decode p w = none ↔
      w &&& reservedMask ≠ 0 ∨ (opField w = 0x0 ∨ 0xA ≤ opField w) ∨ (opField w = 0x9 ∧ p.debug = false) ∨
        (lenField w ≠ 0 ∧ ¬ (opField w = 0x3 ∨ opField w = 0x5 ∨ opField w = 0x7)) ∨
        (naField w = true ∧ opField w ≠ 0x1) := by
  simp only [decode, ite_eq_left_iff, ofFields_eq_none_iff]
  tauto

/-- Settles O5: the words are those of `decode_eq_none_iff`, and a CMD write of one fails the check for ILLEGAL. -/
theorem illegalWordsRaiseIllegalCmd : Obligations.IllegalWordsRaiseIllegalCmd := by
  refine fun s w hc => ⟨?_, fun hd => ?_⟩
  · simp only [decode_eq_none_iff, reservedMask, not_or, or_assoc]
  · exact busAccess_write_cmd_of_rejected (by rw [hd, checkCommand_of_illegal hc])

/-! ### SEQ_ERR -/

/-- A block or final command is legal where its mode is (spec/41_session.md R155). -/
theorem legalCommand_of_sessionMode {i : Instr} {m : Mode} (hm : sessionMode i = some m) (phase : Phase) (mode : Mode) :
    legalCommand i phase mode = legalIn m phase mode := by
  cases i with
  | init | zeroize | permute => cases hm
  | encBlock | encFinal | decBlock | decFinal | hashBlock | hashFinal => cases hm; rfl

/-- In IDLE and FINALIZED no mode is legal, and in ABSORB none but the locked one (R155). -/
theorem legalIn_of_out_of_sequence {m mode : Mode} {phase : Phase}
    (h : phase = .idle ∨ phase = .finalized ∨ (phase = .absorb ∧ mode ≠ m)) : legalIn m phase mode = false := by
  rcases h with rfl | rfl | ⟨rfl, hne⟩
  · rfl
  · rfl
  · exact decide_eq_false hne

/-- Settles O26: the command exists, since its word decodes, so as an instruction and as a CMD write it fails the same
check, that of the phase machine. -/
theorem outOfSequenceRaisesSeqErr : Obligations.OutOfSequenceRaisesSeqErr := by
  intro s i m w hc hm hp hd
  have hl : legalCommand i s.phase s.mode = false := by
    rw [legalCommand_of_sessionMode hm, legalIn_of_out_of_sequence hp]
  have hcheck : s.checkCommand (some i) = some .seqErr := checkCommand_of_out_of_sequence hc hl
  constructor
  · exact exec_of_rejected ((checkInstr_of_wellFormed (wellFormed_of_decode hd)).trans hcheck)
  · exact busAccess_write_cmd_of_rejected (by rw [hd, hcheck])

/-! ### BUSY_ERR -/

/-- With a command in progress an instruction is turned away, whether the implementation has it or not (R154). -/
theorem checkInstr_of_busy {s : State} {i : Instr} (hc : s.cmd = some i) (j : Instr) :
    s.checkInstr j = some .busyErr :=
  checkCommand_of_busy hc _

/-- A write to a mapped register is that register's effect and then its error event (spec/20_memory.md R67). -/
theorem busAccess_write {s : State} {a : BitVec 8} {r : Reg} (h : regAt s.params a = some r) (v : Word) :
    busAccess (Cycle.write a v) s = (writeEffect r v s).raiseIf (writeError r v s) := by
  simp [busAccess, accessEffect, accessError, Cycle.write, h]

/-- With a command in progress a write that is guarded by BUSY is dropped with BUSY_ERR (R245). -/
theorem busAccess_write_guarded_of_busy {s t : State} {i : Instr} {a : BitVec 8} {r : Reg} {v : Word}
    (hc : s.cmd = some i) (h : regAt s.params a = some r) (heffect : writeEffect r v s = if s.busy then s else t)
    (herror : writeError r v s = if s.busy then some .busyErr else none) :
    busAccess (Cycle.write a v) s = s.raise .busyErr := by
  rw [busAccess_write h, heffect, herror]
  simp [hc]

/-- Settles O27: a CMD write fails the check for BUSY and the writes of the input registers are guarded by it; the others
raise nothing. -/
theorem busyDropsGuardedWrites : Obligations.BusyDropsGuardedWrites := by
  intro s i a r v hc h
  refine ⟨⟨?guarded, ?status, ?irqEn, ?readOnly, busAccess_read h⟩, fun j => exec_of_rejected (checkInstr_of_busy hc j)⟩
  case guarded =>
    rintro (rfl | ⟨k, rfl⟩ | ⟨k, rfl⟩ | ⟨k, rfl⟩ | ⟨k, rfl⟩ | ⟨k, rfl⟩)
    · rw [← offsetOf_of_regAt h]
      exact busAccess_write_cmd_of_rejected (checkCommand_of_busy hc _)
    all_goals exact busAccess_write_guarded_of_busy hc h rfl rfl
  case status => rintro rfl; exact busAccess_write h v
  case irqEn => rintro rfl; exact busAccess_write h v
  case readOnly => rintro (rfl | rfl | ⟨k, rfl⟩) <;> exact busAccess_write h v

/-! ### The completion cycle -/

/-- At the last cycle of its window a legal command is carried out on the state the access left, and the access's error
event comes last, so its code stands (R250). -/
theorem clockEdge_of_last_accepted {c : Cycle} {s : State} {i : Instr} (hr : c.rst = false) (hc : s.cmd = some i)
    (hw : i.wellFormed s.params = true) (hl : legalCommand i s.phase s.mode = true)
    (hlast : latency s.params i ≤ s.seqStep + 1) :
    clockEdge c s = .next
      ((commandEffect i ({ accessEffect c s with port := portOut c s }.release.accept i)).complete.raiseIf
        (accessError c s)) := by
  obtain ⟨hphase, hmode⟩ := accessEffect_phase_mode c s
  have hcheck : { accessEffect c s with port := portOut c s }.release.checkInstr i = none :=
    checkInstr_of_legal rfl (by simpa [accessEffect_params] using hw) (by simpa [hphase, hmode] using hl)
  rw [clockEdge_of_last hr hc (decide_eq_true hlast), exec_of_accepted hcheck]
  rfl

/-- With a command in progress a CMD write is judged BUSY_ERR (R245). -/
theorem accessError_write_cmd_of_busy {s : State} {i : Instr} (hc : s.cmd = some i) (w : Word) :
    accessError (Cycle.write 0x04 w) s = some .busyErr := by
  obtain ⟨-, herror⟩ := access_write .cmd w s nofun
  exact herror.trans (checkCommand_of_busy hc _)

/-- While a command is in progress no access reaches DIN or TAGIN (R245). -/
theorem accessEffect_din_tagin_of_busy {s : State} {i : Instr} (hc : s.cmd = some i) (c : Cycle) :
    (accessEffect c s).din = s.din ∧ (accessEffect c s).tagin = s.tagin := by
  rcases accessEffect_of_busy hc c with h | ⟨v, h⟩ | ⟨v, h⟩ <;> simp [h]

/-- An error event sets ERR (R242). -/
theorem raiseIf_err (e : Option ErrCode) (s : State) : (s.raiseIf e).err = (e.isSome || s.err) := by
  cases e <;> rfl

/-- A later error event overwrites the code of an earlier one (R242). -/
theorem raiseIf_errCode (e : Option ErrCode) (s : State) : (s.raiseIf e).errCode = e.getD s.errCode := by
  cases e <;> rfl

/-- Settles O42: the command is carried out whatever the access is (`clockEdge_of_last_accepted`), a CMD write being one
that only raises BUSY_ERR; the access leaves the tag wrong, and its error event follows TAG_FAIL. -/
theorem completionCycleOrder : Obligations.CompletionCycleOrder := by
  refine ⟨fun s t i w hc hw hl hlast ht => ?_, fun s t len c hc hl hlast htag hr ht => ?_⟩
  · rw [clockEdge_of_last_accepted rfl hc hw hl hlast, accessError_write_cmd_of_busy hc] at ht
    cases ht
    exact ⟨rfl, rfl, rfl, rfl⟩
  · obtain ⟨hdin, htagin⟩ := accessEffect_din_tagin_of_busy hc c
    obtain ⟨hsponge, -⟩ := accessEffect_inputs_of_busy hc c
    rw [← decFinalAbsorb_eq_finalInput] at htag
    rw [clockEdge_of_last_accepted hr hc rfl hl hlast, commandEffect,
      decFinalEffect_of_mismatch (by simpa [hdin, htagin, hsponge, rate] using htag)] at ht
    cases ht
    simp [raiseIf_err, raiseIf_errCode]

end Sys2Proof.Machine

/-! The latency of a command, and the reset (spec/70_reset_and_hazards.md R270, R271, R286). -/

namespace Sys2Proof.Machine

/-- Settles O39: the load cycles and P_PERM_CYCLES for each permutation of the command are its row of R286. -/
theorem latencyTable : Obligations.LatencyTable := by
  intro p na len
  simp [latency, loadCyclesOf, permutationsOf]

/-- While rst_i = 1 an access gives err_o = 0 (R270). -/
theorem portOut_err_of_rst {c : Cycle} (hr : c.rst = true) (s : State) : (portOut c s).err = false := by
  cases hq : c.req <;> simp [portOut, PortOut.quiet, hr, hq]

/-- While rst_i = 1 a read returns 0 (R270). -/
theorem portOut_rdata_of_rst {c : Cycle} (hr : c.rst = true) (hq : c.req = true) (hw : c.we = false) (s : State) :
    (portOut c s).rdata = some 0 := by
  simp [portOut, hr, hq, hw]

/-- Settles O44: the cycle gives `State.resetWith`, whose fields are the values of R270, and the port of a cycle under
reset. -/
theorem resetClearsEverything : Obligations.ResetClearsEverything :=
  fun s _ hr => ⟨_, clockEdge_of_rst hr s, rfl, rfl, rfl, rfl, rfl, rfl, rfl, rfl, rfl, rfl, rfl, rfl, rfl, rfl, rfl,
    rfl, rfl, rfl, rfl, portOut_err_of_rst hr s, fun hq hw => portOut_rdata_of_rst hr hq hw s⟩

/-- The commands without a session mode are legal in every phase (spec/41_session.md R155). -/
theorem legalCommand_of_sessionMode_eq_none {i : Instr} (h : sessionMode i = none) (phase : Phase) (mode : Mode) :
    legalCommand i phase mode = true := by
  cases i with
  | init | zeroize | permute => rfl
  | encBlock | encFinal | decBlock | decFinal | hashBlock | hashFinal => cases h

/-- The commands without a session mode, by name. -/
theorem eq_of_sessionMode_eq_none {i : Instr} (h : sessionMode i = none) :
    (∃ na, i = .init na) ∨ i = .zeroize ∨ i = .permute := by
  cases i with
  | init na => exact .inl ⟨na, rfl⟩
  | zeroize => exact .inr (.inl rfl)
  | permute => exact .inr (.inr rfl)
  | encBlock | encFinal | decBlock | decFinal | hashBlock | hashFinal => cases h

/-- Settles O45: after reset the phase is IDLE, where a command is legal exactly if it has no session mode. -/
theorem afterResetOnlySessionStarts : Obligations.AfterResetOnlySessionStarts := by
  intro p
  refine ⟨rfl, rfl, ?status, rfl, fun w i hd => ?_⟩
  case status =>
    simp only [busRead, State.statusWord, State.resetWith, State.busy]
    cases p.debug <;> decide
  cases hm : sessionMode i with
  | none =>
    have hcheck : (State.resetWith p).checkCommand (some i) = none :=
      (checkCommand_eq_none_iff _ _).mpr ⟨rfl, i, rfl, legalCommand_of_sessionMode_eq_none hm _ _⟩
    refine .inl ⟨eq_of_sessionMode_eq_none hm, ?_⟩
    rw [busAccess_write_cmd_of_accepted hd hcheck]
    rfl
  | some m =>
    have hl : legalCommand i .idle .none = false := legalCommand_of_sessionMode hm _ _
    refine .inr ⟨⟨m, rfl⟩, busAccess_write_cmd_of_rejected ?_⟩
    rw [State.resetWith_params, hd, checkCommand_of_out_of_sequence rfl hl]

end Sys2Proof.Machine

/-! The BUSY window cycle by cycle (spec/70_reset_and_hazards.md R280, R281, R288): inside it everything a command leaves
to the host stands as its acceptance put it, so the completion finds the inputs of the state that presented it. -/

namespace Sys2Proof.Machine

/-! ### Runs -/

theorem runFor_succ_of_step {n : Nat} {s t : State} (h : step s = .next t) : runFor (n + 1) s = runFor n t := by
  simp only [runFor, h]

/-- A run of one more cycle is the run and then the cycle. -/
theorem runFor_succ_cases {n : Nat} {s u : State} (h : runFor (n + 1) s = .next u) :
    ∃ t, runFor n s = .next t ∧ step t = .next u := by
  induction n generalizing s with
  | zero =>
    obtain ⟨t, ht⟩ := stepNeverStops s
    rw [runFor_succ_of_step ht] at h
    exact ⟨s, rfl, ht.trans h⟩
  | succ n ih =>
    obtain ⟨t, ht⟩ := stepNeverStops s
    rw [runFor_succ_of_step ht] at h
    rw [runFor_succ_of_step ht]
    exact ih h

/-- No run stops (spec/60_exceptions.md R240). -/
theorem runFor_next (n : Nat) (s : State) : ∃ t, runFor n s = .next t := by
  induction n generalizing s with
  | zero => exact ⟨s, rfl⟩
  | succ n ih =>
    obtain ⟨t, ht⟩ := stepNeverStops s
    rw [runFor_succ_of_step ht]
    exact ih t

theorem nextCycle_rst_of_host {s : State} (h : ∀ c ∈ s.host, c.rst = false) : s.nextCycle.rst = false := by
  cases hh : s.host with
  | nil => rw [State.nextCycle_of_nil hh]; rfl
  | cons c cs => rw [State.nextCycle_of_cons hh]; exact h c (by simp [hh])

/-! ### What reaches the outcome of a command -/

theorem outcome_raiseIf (e : Option ErrCode) (s : State) : (s.raiseIf e).outcome = s.outcome := by
  cases e <;> rfl

theorem outcome_popHost (s : State) : s.popHost.outcome = s.outcome := by
  simp [State.outcome]

/-- With a command in progress and DONE = 0 an access reaches nothing that the command leaves (R281). -/
theorem outcome_accessEffect_of_busy {s : State} {i : Instr} (hc : s.cmd = some i) (hd : s.done = false) (c : Cycle) :
    (accessEffect c s).outcome = s.outcome := by
  rcases accessEffect_of_busy hc c with h | ⟨v, h⟩ | ⟨v, h⟩ <;> rw [h]
  · simp [State.outcome, State.writeStatus_done, hd]
  · rfl

/-- Acceptance is the same on states that agree on what it keeps. -/
theorem outcome_accept_congr {s t : State} (h : s.outcome = t.outcome) (i : Instr) :
    (s.accept i).outcome = (t.accept i).outcome := by
  cases s
  cases t
  cases h
  rfl

/-- What a command leaves is computed from what the host could have left there: the flags of errors, IRQ_EN, the port
and the hidden state take no part. -/
theorem outcome_complete_commandEffect_congr {s t : State} (h : s.outcome = t.outcome) (i : Instr) :
    (commandEffect i s).complete.outcome = (commandEffect i t).complete.outcome := by
  cases s
  cases t
  cases h
  cases i with
  | decFinal len =>
    simp only [commandEffect, decFinalEffect, apply_ite State.complete, apply_ite State.outcome]
    rfl
  | _ => rfl

/-! ### The window, cycle by cycle -/

/-- The state `t` is in the window of command `i`, which `s` presented, after `k` of its cycles; and no reset is to
come. -/
structure InWindow (i : Instr) (s : State) (k : Nat) (t : State) : Prop where
  params : t.params = s.params
  outcome : t.outcome = (s.accept i).outcome
  seqStep : t.seqStep = k
  noReset : ∀ c ∈ t.host, c.rst = false

theorem InWindow.cmd {i : Instr} {s t : State} {k : Nat} (h : InWindow i s k t) : t.cmd = some i :=
  congrArg Outcome.cmd h.outcome
theorem InWindow.done {i : Instr} {s t : State} {k : Nat} (h : InWindow i s k t) : t.done = false :=
  congrArg Outcome.done h.outcome

/-- The accepted CMD write opens the window (spec/41_session.md R154). -/
theorem inWindow_of_step_write_cmd {s t : State} {i : Instr} {w : Word} {cs : List Cycle} (hc : s.cmd = none)
    (hd : decode s.params w = some i) (hl : legalCommand i s.phase s.mode = true)
    (hh : s.host = Cycle.write 0x04 w :: cs) (hcs : ∀ c ∈ cs, c.rst = false) (ht : step s = .next t) :
    InWindow i s 0 t := by
  have hcheck : { s with host := cs }.checkCommand (some i) = none :=
    (checkCommand_eq_none_iff _ _).mpr ⟨hc, i, rfl, hl⟩
  rw [step_write_cmd hc hh, busAccess_write_cmd_of_accepted (s := { s with host := cs }) hd hcheck] at ht
  cases ht
  exact ⟨rfl, rfl, rfl, hcs⟩

/-- The access of a cycle of the window, seen on the port, reaches nothing that the command leaves. -/
theorem InWindow.outcome_access {i : Instr} {s t : State} {k : Nat} (h : InWindow i s k t) (c : Cycle) (p : PortOut) :
    { accessEffect c t.popHost with port := p }.outcome = (s.accept i).outcome :=
  calc (accessEffect c t.popHost).outcome
      _ = t.popHost.outcome := outcome_accessEffect_of_busy (by simpa using h.cmd) (by simpa using h.done) c
      _ = t.outcome := outcome_popHost t
      _ = (s.accept i).outcome := h.outcome

theorem InWindow.lastCycle {i : Instr} {s t : State} {k : Nat} (h : InWindow i s k t) :
    t.popHost.lastCycle i = decide (latency s.params i ≤ k + 1) := by
  simp [State.lastCycle, h.params, h.seqStep]

/-- A cycle before the last leads to the next cycle of the window. -/
theorem InWindow.step {i : Instr} {s t u : State} {k : Nat} (h : InWindow i s k t) (hk : k + 1 < latency s.params i)
    (hu : step t = .next u) : InWindow i s (k + 1) u := by
  have hlast : t.popHost.lastCycle i = false := by rw [h.lastCycle]; exact decide_eq_false (by omega)
  rw [step_eq, clockEdge_of_window (nextCycle_rst_of_host h.noReset) (by simpa using h.cmd) hlast] at hu
  cases hu
  refine ⟨?params, ?outcome, ?seqStep, fun c hcm => h.noReset c (List.mem_of_mem_tail ?_)⟩
  case params => simpa [State.tick, accessEffect_params] using h.params
  case outcome =>
    rw [outcome_raiseIf]
    exact h.outcome_access t.nextCycle (portOut t.nextCycle t.popHost)
  case seqStep =>
    have hcmd : t.popHost.cmd = some i := by simpa using h.cmd
    simp [State.tick, accessEffect_seqStep_of_busy hcmd, h.seqStep]
  · simpa [State.tick, accessEffect_host] using hcm

/-- The last cycle leaves what the command leaves on the state that presented it (spec/70_reset_and_hazards.md R288). -/
theorem InWindow.complete {i : Instr} {s t u : State} {k : Nat} (h : InWindow i s k t)
    (hw : i.wellFormed s.params = true) (hl : legalCommand i s.phase s.mode = true) (hk : latency s.params i ≤ k + 1)
    (hu : Machine.step t = .next u) : u.outcome = (commandEffect i (s.accept i)).complete.outcome := by
  have hp : t.phase = s.phase := congrArg Outcome.phase h.outcome
  have hm : t.mode = s.mode := congrArg Outcome.mode h.outcome
  rw [step_eq, clockEdge_of_last_accepted (i := i) (nextCycle_rst_of_host h.noReset) (by simpa using h.cmd)
    (by simpa [h.params] using hw) (by simpa [hp, hm] using hl) (by simpa [h.params, h.seqStep] using hk)] at hu
  cases hu
  rw [outcome_raiseIf]
  exact outcome_complete_commandEffect_congr (outcome_accept_congr (h.outcome_access _ _) i) i

/-- A run of fewer than L cycles from the start of the window ends inside it. -/
theorem InWindow.runFor {i : Instr} {s t u : State} {n : Nat} (h : InWindow i s 0 t) (hn : n < latency s.params i)
    (hu : runFor n t = .next u) : InWindow i s n u := by
  induction n generalizing u with
  | zero => cases hu; exact h
  | succ n ih =>
    obtain ⟨v, hv, hvu⟩ := runFor_succ_cases hu
    exact (ih (by omega) hv).step hn hvu

/-- A run of L cycles from the start of the window completes the command. -/
theorem InWindow.runFor_latency {i : Instr} {s t u : State} {w : Word} (h : InWindow i s 0 t)
    (hp : s.params.wf = true) (hd : decode s.params w = some i) (hl : legalCommand i s.phase s.mode = true)
    (hu : Machine.runFor (latency s.params i) t = .next u) :
    u.outcome = (commandEffect i (s.accept i)).complete.outcome := by
  have hpos := latency_pos hp i
  obtain ⟨n, hn⟩ := Nat.exists_eq_add_of_le' hpos
  rw [hn] at hu
  obtain ⟨v, hv, hvu⟩ := runFor_succ_cases hu
  exact (h.runFor (by omega) hv).complete (wellFormed_of_decode hd) hl (by omega) hvu

/-- Settles O40: after the CMD write and up to L − 1 cycles the run is in the window, where BUSY, DONE, TAG_OK and OUT
stand as the acceptance put them; the L-th completes the command. -/
theorem busyWindowLastsTheLatency : Obligations.BusyWindowLastsTheLatency := by
  intro s i w cs hp hc hd hl hh hcs
  obtain ⟨v, hv⟩ := stepNeverStops s
  have hopen : InWindow i s 0 v := inWindow_of_step_write_cmd hc hd hl hh hcs hv
  refine ⟨fun k t h1 hk ht => ?_, fun t ht => ?_⟩
  · obtain ⟨k, rfl⟩ := Nat.exists_eq_add_of_le' h1
    rw [runFor_succ_of_step hv] at ht
    have hin : InWindow i s k t := hopen.runFor (by omega) ht
    exact ⟨State.busy_of_some hin.cmd, hin.done, congrArg Outcome.tagOk hin.outcome,
      congrArg Outcome.out hin.outcome⟩
  · have ho := hopen.runFor_latency hp hd hl (by rwa [Nat.add_comm, runFor_succ_of_step hv] at ht)
    exact ⟨State.busy_of_none (congrArg Outcome.cmd ho), congrArg Outcome.done ho⟩

/-- Settles O41: the run completes the command on what the acceptance left, as `exec` does. -/
theorem windowIsAtomic : Obligations.WindowIsAtomic := by
  intro s t i w cs hp hc hd hl hh hcs ht
  obtain ⟨v, hv⟩ := stepNeverStops s
  obtain ⟨u, hu⟩ := runFor_next (latency s.params i) v
  have hopen : InWindow i s 0 v := inWindow_of_step_write_cmd hc hd hl hh hcs hv
  refine ⟨u, by rwa [Nat.add_comm, runFor_succ_of_step hv], ?_⟩
  rw [exec_of_accepted (checkInstr_of_legal hc (wellFormed_of_decode hd) hl)] at ht
  cases ht
  exact hopen.runFor_latency hp hd hl hu

end Sys2Proof.Machine

/-! How long BUSY lasts does not depend on data (spec/70_reset_and_hazards.md R287): each part of a clock cycle takes two
states that agree on control to two states that do. -/

namespace Sys2Proof.Machine

theorem sameControl.busy {s t : State} (h : sameControl s t) : s.busy = t.busy := by
  obtain ⟨-, -, -, hcmd, -, -⟩ := h
  rw [State.busy, State.busy, hcmd]

/-! ### The parts of a clock cycle -/

theorem sameControl.raiseIf {s t : State} (h : sameControl s t) (d e : Option ErrCode) :
    sameControl (s.raiseIf d) (t.raiseIf e) := by
  cases d <;> cases e <;> exact h

theorem sameControl.release {s t : State} (h : sameControl s t) : sameControl s.release t.release := by
  obtain ⟨hparams, hphase, hmode, -, -, hhost⟩ := h
  exact ⟨hparams, hphase, hmode, rfl, rfl, hhost⟩

theorem sameControl.accept {s t : State} (h : sameControl s t) (i : Instr) :
    sameControl (s.accept i) (t.accept i) := by
  obtain ⟨hparams, hphase, hmode, -, -, hhost⟩ := h
  exact ⟨hparams, hphase, hmode, rfl, rfl, hhost⟩

theorem sameControl.tick {s t : State} (h : sameControl s t) (i : Instr) : sameControl (s.tick i) (t.tick i) := by
  obtain ⟨hparams, hphase, hmode, hcmd, hstep, hhost⟩ := h
  exact ⟨hparams, hphase, hmode, hcmd, congrArg (· + 1) hstep, hhost⟩

theorem sameControl.popHost {s t : State} (h : sameControl s t) : sameControl s.popHost t.popHost := by
  obtain ⟨hparams, hphase, hmode, hcmd, hstep, hhost⟩ := h
  simp [sameControl, hparams, hphase, hmode, hcmd, hstep, hhost]

theorem sameControl.nextCycle {s t : State} (h : sameControl s t) : s.nextCycle = t.nextCycle := by
  obtain ⟨-, -, -, -, -, hhost⟩ := h
  rw [State.nextCycle, State.nextCycle, hhost]

theorem sameControl.lastCycle {s t : State} (h : sameControl s t) (i : Instr) : s.lastCycle i = t.lastCycle i := by
  obtain ⟨hparams, -, -, -, hstep, -⟩ := h
  rw [State.lastCycle, State.lastCycle, hparams, hstep]

/-- The checks of a command read control alone (spec/41_session.md R154). -/
theorem sameControl.checkCommand {s t : State} (h : sameControl s t) (d : Option Instr) :
    s.checkCommand d = t.checkCommand d := by
  have hbusy := h.busy
  obtain ⟨-, hphase, hmode, -, -, -⟩ := h
  simp only [State.checkCommand, hbusy, hphase, hmode]

theorem sameControl.checkInstr {s t : State} (h : sameControl s t) (i : Instr) : s.checkInstr i = t.checkInstr i := by
  have hparams : s.params = t.params := h.1
  rw [State.checkInstr, State.checkInstr, hparams, h.checkCommand]

/-! ### The access -/

theorem sameControl.latch {s t : State} (h : sameControl s t) (v : Word) : sameControl (s.latch v) (t.latch v) := by
  have hparams : s.params = t.params := h.1
  unfold State.latch
  rw [hparams]
  cases decode t.params v with
  | none => exact h
  | some i =>
    simp only [h.checkCommand]
    cases t.checkCommand (some i) with
    | none => exact h.accept i
    | some e => exact h

/-- A write that is dropped while BUSY = 1 is dropped by both machines or by none (spec/60_exceptions.md R245). -/
theorem sameControl.unlessBusy {s t s' t' : State} (h : sameControl s t) (h' : sameControl s' t') :
    sameControl (if s.busy then s else s') (if t.busy then t else t') := by
  rw [h.busy]
  split
  · exact h
  · exact h'

/-- Of the registers CMD alone reaches control. -/
theorem sameControl.writeEffect {s t : State} (h : sameControl s t) (r : Reg) (v : Word) :
    sameControl (writeEffect r v s) (writeEffect r v t) := by
  cases r with
  | cmd => exact h.latch v
  | status => simpa [sameControl, Machine.writeEffect] using h
  | key | nonce | din | tagin | stateWord => exact h.unlessBusy h
  | _ => exact h

theorem sameControl.accessEffect {s t : State} (h : sameControl s t) (c : Cycle) :
    sameControl (accessEffect c s) (accessEffect c t) := by
  have hparams : s.params = t.params := h.1
  unfold Machine.accessEffect
  rw [hparams]
  split
  · cases regAt t.params c.addr with
    | none => exact h
    | some r => exact h.writeEffect r c.wdata
  · exact h

/-! ### The commands and the clock cycle -/

/-- A command moves PHASE and MODE by its row of the table, whatever the data (R155). -/
theorem sameControl.complete_commandEffect {s t : State} (h : sameControl s t) (i : Instr) :
    sameControl (commandEffect i s).complete (commandEffect i t).complete := by
  obtain ⟨hparams, hphase, hmode, -, -, hhost⟩ := h
  have hpm : ((commandEffect i s).phase, (commandEffect i s).mode) =
      ((commandEffect i t).phase, (commandEffect i t).mode) := by
    rw [commandEffect_phase_mode, commandEffect_phase_mode, hphase, hmode]
  obtain ⟨hphase', hmode'⟩ := Prod.mk.inj hpm
  exact ⟨by simpa using hparams, hphase', hmode', rfl, rfl, by simpa using hhost⟩

theorem sameControl.exec {s t s' t' : State} (h : sameControl s t) {i : Instr} (hs : exec i s = .next s')
    (ht : exec i t = .next t') : sameControl s' t' := by
  cases hcheck : s.checkInstr i with
  | none =>
    rw [exec_of_accepted hcheck] at hs
    rw [exec_of_accepted (h.checkInstr i ▸ hcheck)] at ht
    cases hs
    cases ht
    exact (h.accept i).complete_commandEffect i
  | some e =>
    rw [exec_of_rejected hcheck] at hs
    rw [exec_of_rejected (h.checkInstr i ▸ hcheck)] at ht
    cases hs
    cases ht
    exact h

/-- The two machines are in the same case of the clock cycle: which one it is depends on control alone. -/
theorem sameControl.clockEdge {c : Cycle} {s t s' t' : State} (h : sameControl s t) (hs : clockEdge c s = .next s')
    (ht : clockEdge c t = .next t') : sameControl s' t' := by
  have ha : sameControl { Machine.accessEffect c s with port := portOut c s }
      { Machine.accessEffect c t with port := portOut c t } := h.accessEffect c
  have ⟨hparams, _, _, hcmd, _, hhost⟩ := h
  cases hr : c.rst with
  | true =>
    rw [clockEdge_of_rst hr] at hs ht
    cases hs
    cases ht
    exact ⟨hparams, rfl, rfl, rfl, rfl, hhost⟩
  | false =>
    cases hc : s.cmd with
    | none =>
      rw [clockEdge_of_idle hr hc] at hs
      rw [clockEdge_of_idle hr (hcmd ▸ hc)] at ht
      cases hs
      cases ht
      exact ha.raiseIf _ _
    | some i =>
      cases hl : s.lastCycle i with
      | false =>
        rw [clockEdge_of_window hr hc hl] at hs
        rw [clockEdge_of_window hr (hcmd ▸ hc) (h.lastCycle i ▸ hl)] at ht
        cases hs
        cases ht
        exact (ha.tick i).raiseIf _ _
      | true =>
        obtain ⟨u, hu⟩ := exec_next i { Machine.accessEffect c s with port := portOut c s }.release
        obtain ⟨v, hv⟩ := exec_next i { Machine.accessEffect c t with port := portOut c t }.release
        rw [clockEdge_of_last hr hc hl, hu] at hs
        rw [clockEdge_of_last hr (hcmd ▸ hc) (h.lastCycle i ▸ hl), hv] at ht
        cases hs
        cases ht
        exact (ha.release.exec hu hv).raiseIf _ _

theorem sameControl.step {s t s' t' : State} (h : sameControl s t) (hs : step s = .next s') (ht : step t = .next t') :
    sameControl s' t' := by
  rw [step_eq] at hs ht
  rw [← h.nextCycle] at ht
  exact h.popHost.clockEdge hs ht

theorem sameControl.runFor {n : Nat} {s t s' t' : State} (h : sameControl s t) (hs : runFor n s = .next s')
    (ht : runFor n t = .next t') : sameControl s' t' := by
  induction n generalizing s' t' with
  | zero => cases hs; cases ht; exact h
  | succ n ih =>
    obtain ⟨u, hu, hus⟩ := runFor_succ_cases hs
    obtain ⟨v, hv, hvt⟩ := runFor_succ_cases ht
    exact (ih hu hv).step hus hvt

/-- Settles O55: agreement on control is kept by every run (`sameControl.runFor`), and BUSY is part of it. -/
theorem timingIgnoresData : Obligations.TimingIgnoresData := by
  intro n s t s' t' h hs ht
  have h' : sameControl s' t' := h.runFor hs ht
  exact ⟨h', h'.busy⟩

end Sys2Proof.Machine
